-- ==== Sys2Proof/Word.lean ====
section
/-! DEFINITION. The word type of the hardware: packet bytes are unsigned 8-bit values (spec/00_scope.md R8). -/

namespace Sys2Proof

/-- A packet byte (00_scope R8). -/
abbrev Byte := BitVec 8

end Sys2Proof
end

