-- ==== Sys2Proof/Config.lean ====
section
/-! DEFINITION. The parameters whose value the spec gives (spec/00_scope.md R6), the decided smoothing weight of
R7 that is no parameter (log entry 11), and the one free value. The parameters of R7 are data of the state
(`Machine.Params`), so that every statement quantifies over them. -/

namespace Sys2Proof.Config

/-- `T1_US`: each half-period of a logical 1, in microseconds (R6, R140). -/
def t1Us : Nat := 58

/-- `T0_US`: each half-period of a logical 0, in microseconds (R6, R140). -/
def t0Us : Nat := 116

/-- `P_SHORT` + 9: the countdown at the start of a 14-bit preamble (R6, R7 `CNT_INIT`, R144). -/
def cntInitShort : BitVec 6 := 23

/-- `P_LONG` + 9: the countdown at the start of a 24-bit preamble (R6, R7 `CNT_INIT`, R144). -/
def cntInitLong : BitVec 6 := 33

/-- `CNT_BYTESTART`: the countdown of the byte-start position (R6, R143). -/
def cntByteStart : BitVec 6 := 9

/-- `CNT_LOCK_SHORT`: the lock position of a short preamble (R6, R145). -/
def cntLockShort : BitVec 6 := 21

/-- `POM_REPEAT`: publications of a POM instruction packet (R6, R235). -/
def pomRepeat : BitVec 3 := 4

/-- `N_PG_START` (R6, R258). -/
def nPgStart : BitVec 4 := 3

/-- `N_PG_PG_WRITE` (R6, R258). -/
def nPgPgWrite : BitVec 4 := 5

/-- `N_PG_RESET` (R6, R258). -/
def nPgReset : BitVec 4 := 6

/-- `N_PG_WRITE` (R6, R258). -/
def nPgWrite : BitVec 4 := 5

/-- `N_PG_RESET_2` (R6, R258). -/
def nPgReset2 : BitVec 4 := 10

/-- `EMA_WEIGHT`: smoothing weight of the bus current (R6, R291). -/
def emaWeight : Rat := 1 / 5

/-- `VOLT_EMA_WEIGHT`: smoothing weight of the bus voltage, the spec's decided default
(R7, R291; DESIGN CHOICE of the spec's D33, log entry 11). -/
def voltEmaWeight : Rat := 1 / 5

/-- `ACK_DELTA_MA` (R6, R297). -/
def ackDeltaMA : Rat := 20

/-- `SVC_TRIP_DELTA_MA` (R6, R292). -/
def svcTripDeltaMA : Rat := 250

/-- `TICK10_US` (R6, R151). -/
def tick10Us : Nat := 10000

/-- `TICK1_US` (R6, R151). -/
def tick1Us : Nat := 1000

/-- The three samples `H_TICK_CONSUME` reads (spec/47_host_commands.md R312). -/
inductive SampleKind where
  /-- the bus current of the 10 ms tick, `i10` -/
  | current10
  /-- the bus voltage of the 10 ms tick, `u10` -/
  | voltage10
  /-- the bus current of the 1 ms tick, `i1` -/
  | current1
  deriving DecidableEq, Repr

/-- FREE VALUE: what a sample reads as when ENV supplies the negative number `x` with `n` turns still to come.
Samples are non-negative (spec/46_power_monitor.md R290), and no rule says what a negative one does; so nothing is
known of it but that it is non-negative (DESIGN CHOICE, log entry 14). -/
opaque freeSample (kind : SampleKind) (n : Nat) (x : Rat) : NNRat

end Sys2Proof.Config
end

