-- ==== Sys2Proof/Syntax.lean ====
section
/-! DEFINITION. The instructions: one constructor for each of the 30 packet types of
spec/opcode_table.json (spec/30_encoding.md R102). The arguments are the fields of the encoding: `a` an
address, `d` the direction bit, `code` the line speed code, `f` the function bits, `board`/`pair`/`r`
the parts of the raw accessory address and the output select, `v` the ten bits of `cv - 1`. -/

namespace Sys2Proof

/-- The six packet families (10_state R29): the values of the family tag, and the context in which
the bytes of a packet are read. -/
inductive Family where
  | loco
  | function
  | accessory
  | estop
  | pom
  | service
  deriving DecidableEq, Repr

/-- One packet of the opcode table (R102). -/
inductive Instr where
  /-- `IDLE` (R199): `FF 00`. -/
  | idle
  /-- `SPD28.S` (R200): `0AAAAAAA 01DCSSSS`; `code` is `C SSSS` (R106). -/
  | spd28S (a : BitVec 7) (d : Bool) (code : BitVec 5)
  /-- `SPD28.L` (R200): `11AAAAAA AAAAAAAA 01DCSSSS`. -/
  | spd28L (a : BitVec 14) (d : Bool) (code : BitVec 5)
  /-- `SPD128.S` (R201): `0AAAAAAA 00111111 DSSSSSSS`. -/
  | spd128S (a : BitVec 7) (d : Bool) (code : BitVec 7)
  /-- `SPD128.L` (R201): `11AAAAAA AAAAAAAA 00111111 DSSSSSSS`. -/
  | spd128L (a : BitVec 14) (d : Bool) (code : BitVec 7)
  /-- `ESTOP28.S` (R202): `0AAAAAAA 01D00001`. -/
  | estop28S (a : BitVec 7) (d : Bool)
  /-- `ESTOP28.L` (R202): `11AAAAAA AAAAAAAA 01D00001`. -/
  | estop28L (a : BitVec 14) (d : Bool)
  /-- `ESTOP128.S` (R203): `0AAAAAAA 00111111 00000001`. -/
  | estop128S (a : BitVec 7)
  /-- `ESTOP128.L` (R203): `11AAAAAA AAAAAAAA 00111111 00000001`. -/
  | estop128L (a : BitVec 14)
  /-- `FG1.S` (R206): `0AAAAAAA 100FFFFF`, `f` = F0 F4 F3 F2 F1. -/
  | fg1S (a : BitVec 7) (f : BitVec 5)
  /-- `FG1.L` (R206): `11AAAAAA AAAAAAAA 100FFFFF`. -/
  | fg1L (a : BitVec 14) (f : BitVec 5)
  /-- `FG2.S` (R207): `0AAAAAAA 1011FFFF`, `f` = F8 F7 F6 F5. -/
  | fg2S (a : BitVec 7) (f : BitVec 4)
  /-- `FG2.L` (R207): `11AAAAAA AAAAAAAA 1011FFFF`. -/
  | fg2L (a : BitVec 14) (f : BitVec 4)
  /-- `FG3.S` (R208): `0AAAAAAA 1010FFFF`, `f` = F12 F11 F10 F9. -/
  | fg3S (a : BitVec 7) (f : BitVec 4)
  /-- `FG3.L` (R208): `11AAAAAA AAAAAAAA 1010FFFF`. -/
  | fg3L (a : BitVec 14) (f : BitVec 4)
  /-- `ACC` (R220): `10AAAAAA 1aaa1PPR`. -/
  | acc (board : BitVec 9) (pair : BitVec 2) (r : Bool)
  /-- `BSTOP` (R221): `00 41`, the row of the table; what is sent has the byte `ESTOP_BCAST_INSTR` (R7). -/
  | bstop
  /-- `POMWB.S` (R233): `0AAAAAAA 111011VV VVVVVVVV DDDDDDDD`. -/
  | pomwbS (a : BitVec 7) (v : BitVec 10) (data : Byte)
  /-- `POMWB.L` (R233): `11AAAAAA AAAAAAAA 111011VV VVVVVVVV DDDDDDDD`. -/
  | pomwbL (a : BitVec 14) (v : BitVec 10) (data : Byte)
  /-- `POMWB.A` (R233): `10AAAAAA 1aaa1PP0 111011VV VVVVVVVV DDDDDDDD`. -/
  | pomwbA (board : BitVec 9) (pair : BitVec 2) (v : BitVec 10) (data : Byte)
  /-- `POMBIT.S` (R234): `0AAAAAAA 111010VV VVVVVVVV 1111DBBB`. -/
  | pombitS (a : BitVec 7) (v : BitVec 10) (val : Bool) (pos : BitVec 3)
  /-- `POMBIT.L` (R234): `11AAAAAA AAAAAAAA 111010VV VVVVVVVV 1111DBBB`. -/
  | pombitL (a : BitVec 14) (v : BitVec 10) (val : Bool) (pos : BitVec 3)
  /-- `POMBIT.A` (R234): `10AAAAAA 1aaa1PP0 111010VV VVVVVVVV 1111DBBB`. -/
  | pombitA (board : BitVec 9) (pair : BitVec 2) (v : BitVec 10) (val : Bool) (pos : BitVec 3)
  /-- `SVC.RESET` (R251): `00 00`. -/
  | svcReset
  /-- `SVC.PGWR` (R252): `01111101 PPPPPPPP`. -/
  | svcPgwr (page : Byte)
  /-- `SVC.REGWR` (R253): `011110RR DDDDDDDD`. -/
  | svcRegwr (reg : BitVec 2) (data : Byte)
  /-- `SVC.WRBYTE` (R254): `011111VV VVVVVVVV DDDDDDDD`. -/
  | svcWrbyte (v : BitVec 10) (data : Byte)
  /-- `SVC.VFBYTE` (R255): `011101VV VVVVVVVV DDDDDDDD`. -/
  | svcVfbyte (v : BitVec 10) (data : Byte)
  /-- `SVC.VFBIT` (R256): `011110VV VVVVVVVV 11101BBB`. -/
  | svcVfbit (v : BitVec 10) (pos : BitVec 3)
  /-- `SVC.WRBIT` (R257): `011110VV VVVVVVVV 1111DBBB`. -/
  | svcWrbit (v : BitVec 10) (val : Bool) (pos : BitVec 3)
  deriving DecidableEq, Repr

/-- The family column of the opcode table (`IDLE` is also built by the Function family, R199). -/
def Instr.family : Instr → Family
  | .idle => .loco
  | .spd28S _ _ _ => .loco
  | .spd28L _ _ _ => .loco
  | .spd128S _ _ _ => .loco
  | .spd128L _ _ _ => .loco
  | .estop28S _ _ => .loco
  | .estop28L _ _ => .loco
  | .estop128S _ => .loco
  | .estop128L _ => .loco
  | .fg1S _ _ => .function
  | .fg1L _ _ => .function
  | .fg2S _ _ => .function
  | .fg2L _ _ => .function
  | .fg3S _ _ => .function
  | .fg3L _ _ => .function
  | .acc _ _ _ => .accessory
  | .bstop => .estop
  | .pomwbS _ _ _ => .pom
  | .pomwbL _ _ _ => .pom
  | .pomwbA _ _ _ _ => .pom
  | .pombitS _ _ _ _ => .pom
  | .pombitL _ _ _ _ => .pom
  | .pombitA _ _ _ _ _ => .pom
  | .svcReset => .service
  | .svcPgwr _ => .service
  | .svcRegwr _ _ => .service
  | .svcWrbyte _ _ => .service
  | .svcVfbyte _ _ => .service
  | .svcVfbit _ _ => .service
  | .svcWrbit _ _ _ => .service

/-- The long-preamble attribute of a packet type (R118): true for the mnemonics `SVC.*` only. -/
def Instr.longPreamble (i : Instr) : Bool :=
  match i.family with
  | .service => true
  | .loco => false
  | .function => false
  | .accessory => false
  | .estop => false
  | .pom => false

end Sys2Proof
end

