-- ==== Sys2Proof/WellFormed.lean ====
section
/-! DEFINITION. Two predicates on instructions. `Instr.wf`: the fields name the row the packet belongs to
(a 28-step packet with speed code 00001 belongs to the row `ESTOP28`, R202, a 128-step packet with
speed byte 01 to the row `ESTOP128`, R203). `Instr.legal`: the addresses lie in the legal ranges of
spec/20_memory.md R71 to R73. An illegal address is masked and sent all the same (10_state R31), so
`wf` does not ask for it. -/

namespace Sys2Proof

/-- Speed code 00001 in the 28-step form is the row `ESTOP28` of the table (R202). -/
def speed28Free (code : BitVec 5) : Bool := code != 1#5

/-- Speed byte 0x01 in the 128-step form is the row `ESTOP128` of the table (R203). -/
def speed128Free (d : Bool) (code : BitVec 7) : Bool := d || code != 1#7

/-- The instruction is written under the row of the opcode table that owns its bytes. -/
def Instr.wf : Instr → Bool
  | .idle => true
  | .spd28S _ _ code => speed28Free code
  | .spd28L _ _ code => speed28Free code
  | .spd128S _ d code => speed128Free d code
  | .spd128L _ d code => speed128Free d code
  | .estop28S _ _ => true
  | .estop28L _ _ => true
  | .estop128S _ => true
  | .estop128L _ => true
  | .fg1S _ _ => true
  | .fg1L _ _ => true
  | .fg2S _ _ => true
  | .fg2L _ _ => true
  | .fg3S _ _ => true
  | .fg3L _ _ => true
  | .acc _ _ _ => true
  | .bstop => true
  | .pomwbS _ _ _ => true
  | .pomwbL _ _ _ => true
  | .pomwbA _ _ _ _ => true
  | .pombitS _ _ _ _ => true
  | .pombitL _ _ _ _ => true
  | .pombitA _ _ _ _ _ => true
  | .svcReset => true
  | .svcPgwr _ => true
  | .svcRegwr _ _ => true
  | .svcWrbyte _ _ => true
  | .svcVfbyte _ _ => true
  | .svcVfbit _ _ => true
  | .svcWrbit _ _ _ => true

/-- Locomotive short address: 1 to 127 (20_memory R71). -/
def shortLegal (a : BitVec 7) : Bool := a != 0#7

/-- Locomotive long address: 1 to 10239 (20_memory R72). -/
def longLegal (a : BitVec 14) : Bool := a != 0#14 && decide (a.toNat ≤ 10239)

/-- The raw accessory address of an address 1 to 2047 (20_memory R73): every raw value but 3, which
is address 0. -/
def accLegal (board : BitVec 9) (pair : BitVec 2) : Bool := !(board == 0#9 && pair == 3#2)

/-- The addresses of the instruction are in the legal ranges of R71 to R73. -/
def Instr.legal : Instr → Bool
  | .idle => true
  | .spd28S a _ _ => shortLegal a
  | .spd28L a _ _ => longLegal a
  | .spd128S a _ _ => shortLegal a
  | .spd128L a _ _ => longLegal a
  | .estop28S a _ => shortLegal a
  | .estop28L a _ => longLegal a
  | .estop128S a => shortLegal a
  | .estop128L a => longLegal a
  | .fg1S a _ => shortLegal a
  | .fg1L a _ => longLegal a
  | .fg2S a _ => shortLegal a
  | .fg2L a _ => longLegal a
  | .fg3S a _ => shortLegal a
  | .fg3L a _ => longLegal a
  | .acc board pair _ => accLegal board pair
  | .bstop => true
  | .pomwbS a _ _ => shortLegal a
  | .pomwbL a _ _ => longLegal a
  | .pomwbA board pair _ _ => accLegal board pair
  | .pombitS a _ _ _ => shortLegal a
  | .pombitL a _ _ _ => longLegal a
  | .pombitA board pair _ _ _ => accLegal board pair
  | .svcReset => true
  | .svcPgwr _ => true
  | .svcRegwr _ _ => true
  | .svcWrbyte _ _ => true
  | .svcVfbyte _ _ => true
  | .svcVfbit _ _ => true
  | .svcWrbit _ _ _ => true

end Sys2Proof
end

