-- ==== Sys2Proof/Decode.lean ====
section
/-! DEFINITION. Reading and writing the payload bytes of a packet (the bytes before the checksum),
spec/30_encoding.md R101 to R117 and R120. A packet is read in the family that builds it, because the
same bytes mean different things in operations mode and in service mode (R121) and `00 41` is both the
broadcast stop and a masked short address 0 (log entry 10). `encode` is written from the bit patterns of
spec/opcode_table.json, independently of the builders of `Machine/Operands.lean`. -/

namespace Sys2Proof

/-- Why a byte sequence is no packet of a family (R120: reserved and never-emitted encodings). -/
inductive Reject where
  /-- No format of the family has this number of payload bytes (R101). -/
  | badLength
  /-- The first byte is of an address kind the family does not use (20_memory R76). -/
  | foreignAddress
  /-- First byte 0xFF with a second byte that is not the idle packet's (R199). -/
  | idleData
  /-- The instruction byte is in no row of the family (R104). -/
  | reservedInstruction
  /-- Second accessory byte with bit 7 clear: the extended accessory format, never emitted (R120). -/
  | extendedAccessory
  /-- Accessory packet with the activation bit 0, never emitted (R114). -/
  | accessoryOff
  /-- POM accessory address with the output select 1, never emitted (R115). -/
  | pomOutputSelect
  /-- Second byte of a broadcast that is not the broadcast stop (R221). -/
  | notBroadcastStop
  /-- CV-access operation `CC` = 00, reserved (R111). -/
  | reservedCC
  /-- CV-access operation `CC` = 01 on the main track: POM verify, never emitted (R111). -/
  | pomVerify
  /-- Bit-manipulation data byte that is not `1111DBBB` on the main track (R112). -/
  | pomBitData
  /-- Physical-register verify form `01110RRR`, never emitted (R113). -/
  | physicalVerify
  /-- Physical register other than 0 to 3 and 5, never emitted (R113). -/
  | physicalRegister
  /-- Bit-manipulation data byte that is neither `11101BBB` nor `1111DBBB` in service mode (R112). -/
  | serviceBitData
  /-- Service-mode first byte that is no service instruction (R110). -/
  | notService
  deriving DecidableEq, Repr

/-- First byte of a locomotive short address, `0AAAAAAA` (20_memory R76). -/
def isShortByte (b : Byte) : Bool := !b.getLsbD 7

/-- First byte of a locomotive long address, `11AAAAAA` (30_encoding R101). -/
def isLongByte (b : Byte) : Bool := b.extractLsb' 6 2 == 3#2

/-- First byte of an accessory address, `10AAAAAA` (30_encoding R101). -/
def isAccByte (b : Byte) : Bool := b.extractLsb' 6 2 == 2#2

/-- The seven address bits of a short address byte (R71). -/
def shortField (b : Byte) : BitVec 7 := b.extractLsb' 0 7

/-- The fourteen address bits of the two long address bytes, high part first (R72, R77). -/
def longField (b0 b1 : Byte) : BitVec 14 := b0.extractLsb' 0 6 ++ b1

/-- The board number of two accessory address bytes: the high three bits are complemented (R114). -/
def boardField (b0 b1 : Byte) : BitVec 9 := ~~~(b1.extractLsb' 4 3) ++ b0.extractLsb' 0 6

/-- The pair number of the second accessory address byte (R114). -/
def pairField (b1 : Byte) : BitVec 2 := b1.extractLsb' 1 2

/-- The ten bits of `cv - 1` of an instruction byte and the byte that follows it (R116). -/
def cvField (op lo : Byte) : BitVec 10 := op.extractLsb' 0 2 ++ lo

/-- Speed and direction, 28-step form, short address: `01DCSSSS` (R104, R106, R202). -/
def readSpeed28S (a : BitVec 7) (i : Byte) : Except Reject Instr :=
  if i.extractLsb' 6 2 = 1#2 then
    if i.extractLsb' 0 5 = 1#5 then .ok (.estop28S a (i.getLsbD 5))
    else .ok (.spd28S a (i.getLsbD 5) (i.extractLsb' 0 5))
  else .error .reservedInstruction

/-- Speed and direction, 28-step form, long address. -/
def readSpeed28L (a : BitVec 14) (i : Byte) : Except Reject Instr :=
  if i.extractLsb' 6 2 = 1#2 then
    if i.extractLsb' 0 5 = 1#5 then .ok (.estop28L a (i.getLsbD 5))
    else .ok (.spd28L a (i.getLsbD 5) (i.extractLsb' 0 5))
  else .error .reservedInstruction

/-- Speed byte of the 128-step form, short address: `DSSSSSSS` (R107, R203). -/
def readSpeed128S (a : BitVec 7) (sp : Byte) : Except Reject Instr :=
  if sp = 0x01#8 then .ok (.estop128S a)
  else .ok (.spd128S a (sp.getLsbD 7) (sp.extractLsb' 0 7))

/-- Speed byte of the 128-step form, long address. -/
def readSpeed128L (a : BitVec 14) (sp : Byte) : Except Reject Instr :=
  if sp = 0x01#8 then .ok (.estop128L a)
  else .ok (.spd128L a (sp.getLsbD 7) (sp.extractLsb' 0 7))

/-- Loco family: `IDLE`, `SPD28`, `SPD128`, `ESTOP28`, `ESTOP128` (R102). -/
def decodeLoco : List Byte → Except Reject Instr
  | [b0, b1] =>
    if b0 = 0xFF#8 then
      if b1 = 0x00#8 then .ok .idle else .error .idleData
    else if isShortByte b0 then readSpeed28S (shortField b0) b1
    else .error .foreignAddress
  | [b0, b1, b2] =>
    if isLongByte b0 then readSpeed28L (longField b0 b1) b2
    else if isShortByte b0 then
      if b1 = 0x3F#8 then readSpeed128S (shortField b0) b2 else .error .reservedInstruction
    else .error .foreignAddress
  | [b0, b1, b2, b3] =>
    if isLongByte b0 then
      if b2 = 0x3F#8 then readSpeed128L (longField b0 b1) b3 else .error .reservedInstruction
    else .error .foreignAddress
  | _ => .error .badLength

/-- Function-group instruction byte, short address (R104, R108). -/
def readFunctionS (a : BitVec 7) (i : Byte) : Except Reject Instr :=
  if i.extractLsb' 5 3 = 4#3 then .ok (.fg1S a (i.extractLsb' 0 5))
  else if i.extractLsb' 4 4 = 11#4 then .ok (.fg2S a (i.extractLsb' 0 4))
  else if i.extractLsb' 4 4 = 10#4 then .ok (.fg3S a (i.extractLsb' 0 4))
  else .error .reservedInstruction

/-- Function-group instruction byte, long address (R104, R108). -/
def readFunctionL (a : BitVec 14) (i : Byte) : Except Reject Instr :=
  if i.extractLsb' 5 3 = 4#3 then .ok (.fg1L a (i.extractLsb' 0 5))
  else if i.extractLsb' 4 4 = 11#4 then .ok (.fg2L a (i.extractLsb' 0 4))
  else if i.extractLsb' 4 4 = 10#4 then .ok (.fg3L a (i.extractLsb' 0 4))
  else .error .reservedInstruction

/-- Function family: `FG1`, `FG2`, `FG3`, and `IDLE` for an empty slot (R102, R199). -/
def decodeFunction : List Byte → Except Reject Instr
  | [b0, b1] =>
    if b0 = 0xFF#8 then
      if b1 = 0x00#8 then .ok .idle else .error .idleData
    else if isShortByte b0 then readFunctionS (shortField b0) b1
    else .error .foreignAddress
  | [b0, b1, b2] =>
    if isLongByte b0 then readFunctionL (longField b0 b1) b2
    else .error .foreignAddress
  | _ => .error .badLength

/-- Accessory family: `ACC`, `10AAAAAA 1aaa1PPR` (R114, R220). -/
def decodeAccessory : List Byte → Except Reject Instr
  | [b0, b1] =>
    if isAccByte b0 then
      if b1.getLsbD 7 then
        if b1.getLsbD 3 then .ok (.acc (boardField b0 b1) (pairField b1) (b1.getLsbD 0))
        else .error .accessoryOff
      else .error .extendedAccessory
    else .error .foreignAddress
  | _ => .error .badLength

/-- Estop family: `BSTOP` (R221), as the opcode table writes the row; the byte sent is a parameter, which the
meaning puts in (R7, log entry 11). -/
def decodeEstop : List Byte → Except Reject Instr
  | [b0, b1] =>
    if b0 = 0x00#8 then
      if b1 = 0x41#8 then .ok .bstop else .error .notBroadcastStop
    else .error .foreignAddress
  | _ => .error .badLength

/-- The CV-access operations of the main track (R111, R112). -/
inductive PomOp where
  | byte (data : Byte)
  | bit (val : Bool) (pos : BitVec 3)
  deriving DecidableEq, Repr

/-- The instruction byte `1110CCVV` and the data byte of a POM packet (R104, R111, R112, R232). -/
def readPomOp (op data : Byte) : Except Reject PomOp :=
  if op.extractLsb' 4 4 = 14#4 then
    if op.extractLsb' 2 2 = 3#2 then .ok (.byte data)
    else if op.extractLsb' 2 2 = 2#2 then
      if data.extractLsb' 4 4 = 15#4 then .ok (.bit (data.getLsbD 3) (data.extractLsb' 0 3))
      else .error .pomBitData
    else if op.extractLsb' 2 2 = 1#2 then .error .pomVerify
    else .error .reservedCC
  else .error .reservedInstruction

/-- A POM packet to a short address (formats of R233, R234). -/
def readPomS (a : BitVec 7) (op lo data : Byte) : Except Reject Instr :=
  match readPomOp op data with
  | .ok (.byte d) => .ok (.pomwbS a (cvField op lo) d)
  | .ok (.bit val pos) => .ok (.pombitS a (cvField op lo) val pos)
  | .error e => .error e

/-- A POM packet to a long address. -/
def readPomL (a : BitVec 14) (op lo data : Byte) : Except Reject Instr :=
  match readPomOp op data with
  | .ok (.byte d) => .ok (.pomwbL a (cvField op lo) d)
  | .ok (.bit val pos) => .ok (.pombitL a (cvField op lo) val pos)
  | .error e => .error e

/-- A POM packet to an accessory decoder: second address byte `1aaa1PP0` (R115). -/
def readPomA (b0 b1 op lo data : Byte) : Except Reject Instr :=
  if b1.getLsbD 7 then
    if b1.getLsbD 3 then
      if b1.getLsbD 0 then .error .pomOutputSelect
      else
        match readPomOp op data with
        | .ok (.byte d) => .ok (.pomwbA (boardField b0 b1) (pairField b1) (cvField op lo) d)
        | .ok (.bit val pos) =>
          .ok (.pombitA (boardField b0 b1) (pairField b1) (cvField op lo) val pos)
        | .error e => .error e
    else .error .accessoryOff
  else .error .extendedAccessory

/-- POM family: `POMWB`, `POMBIT` (R102, R233, R234). -/
def decodePom : List Byte → Except Reject Instr
  | [b0, b1, b2, b3] =>
    if isShortByte b0 then readPomS (shortField b0) b1 b2 b3 else .error .foreignAddress
  | [b0, b1, b2, b3, b4] =>
    if isLongByte b0 then readPomL (longField b0 b1) b2 b3 b4
    else if isAccByte b0 then readPomA b0 b1 b2 b3 b4
    else .error .foreignAddress
  | _ => .error .badLength

/-- Service family: two bytes are the reset packet or a physical-register write, three bytes the
direct form (R110, R113, R121). -/
def decodeService : List Byte → Except Reject Instr
  | [b0, b1] =>
    if b0 = 0x00#8 then
      if b1 = 0x00#8 then .ok .svcReset else .error .notService
    else if b0.extractLsb' 4 4 = 7#4 then
      if b0.getLsbD 3 then
        if b0 = 0x7D#8 then .ok (.svcPgwr b1)
        else if b0.getLsbD 2 then .error .physicalRegister
        else .ok (.svcRegwr (b0.extractLsb' 0 2) b1)
      else .error .physicalVerify
    else .error .notService
  | [b0, b1, b2] =>
    if b0.extractLsb' 4 4 = 7#4 then
      if b0.extractLsb' 2 2 = 3#2 then .ok (.svcWrbyte (cvField b0 b1) b2)
      else if b0.extractLsb' 2 2 = 1#2 then .ok (.svcVfbyte (cvField b0 b1) b2)
      else if b0.extractLsb' 2 2 = 2#2 then
        if b2.extractLsb' 3 5 = 29#5 then .ok (.svcVfbit (cvField b0 b1) (b2.extractLsb' 0 3))
        else if b2.extractLsb' 4 4 = 15#4 then
          .ok (.svcWrbit (cvField b0 b1) (b2.getLsbD 3) (b2.extractLsb' 0 3))
        else .error .serviceBitData
      else .error .reservedCC
    else .error .notService
  | _ => .error .badLength

/-- The packet that the payload bytes `bs` are, read in the family that builds them. Total: every
byte sequence is a packet or is rejected by name. -/
def decode (f : Family) (bs : List Byte) : Except Reject Instr :=
  match f with
  | .loco => decodeLoco bs
  | .function => decodeFunction bs
  | .accessory => decodeAccessory bs
  | .estop => decodeEstop bs
  | .pom => decodePom bs
  | .service => decodeService bs

/-- `0AAAAAAA`. -/
def shortBytes (a : BitVec 7) : List Byte := [0#1 ++ a]

/-- `11AAAAAA AAAAAAAA`. -/
def longBytes (a : BitVec 14) : List Byte := [3#2 ++ a.extractLsb' 8 6, a.extractLsb' 0 8]

/-- `10AAAAAA 1aaa1PPR` (R114); POM packets have `R` = 0 (R115). -/
def accBytes (board : BitVec 9) (pair : BitVec 2) (r : Bool) : List Byte :=
  [2#2 ++ board.extractLsb' 0 6,
   1#1 ++ ~~~(board.extractLsb' 6 3) ++ 1#1 ++ pair ++ BitVec.ofBool r]

/-- `01DCSSSS`. -/
def speed28Byte (d : Bool) (code : BitVec 5) : Byte := 1#2 ++ BitVec.ofBool d ++ code

/-- `DSSSSSSS`. -/
def speed128Byte (d : Bool) (code : BitVec 7) : Byte := BitVec.ofBool d ++ code

/-- `1110CCVV VVVVVVVV` (R104, R116). -/
def pomCvBytes (cc : BitVec 2) (v : BitVec 10) : List Byte :=
  [14#4 ++ cc ++ v.extractLsb' 8 2, v.extractLsb' 0 8]

/-- `0111CCVV VVVVVVVV` (R110, R116). -/
def svcCvBytes (cc : BitVec 2) (v : BitVec 10) : List Byte :=
  [7#4 ++ cc ++ v.extractLsb' 8 2, v.extractLsb' 0 8]

/-- `1111DBBB`, bit manipulation with `K` = 1 (R112). -/
def writeBitByte (val : Bool) (pos : BitVec 3) : Byte := 15#4 ++ BitVec.ofBool val ++ pos

/-- `11101BBB`, bit manipulation with `K` = 0 and comparison value 1 (R112, R256). -/
def verifyBitByte (pos : BitVec 3) : Byte := 29#5 ++ pos

/-- The payload bytes of an instruction, in transmission order, as the rows of
spec/opcode_table.json spell them. -/
def encode : Instr → List Byte
  | .idle => [0xFF#8, 0x00#8]
  | .spd28S a d code => shortBytes a ++ [speed28Byte d code]
  | .spd28L a d code => longBytes a ++ [speed28Byte d code]
  | .spd128S a d code => shortBytes a ++ [0x3F#8, speed128Byte d code]
  | .spd128L a d code => longBytes a ++ [0x3F#8, speed128Byte d code]
  | .estop28S a d => shortBytes a ++ [speed28Byte d 1#5]
  | .estop28L a d => longBytes a ++ [speed28Byte d 1#5]
  | .estop128S a => shortBytes a ++ [0x3F#8, 0x01#8]
  | .estop128L a => longBytes a ++ [0x3F#8, 0x01#8]
  | .fg1S a f => shortBytes a ++ [4#3 ++ f]
  | .fg1L a f => longBytes a ++ [4#3 ++ f]
  | .fg2S a f => shortBytes a ++ [11#4 ++ f]
  | .fg2L a f => longBytes a ++ [11#4 ++ f]
  | .fg3S a f => shortBytes a ++ [10#4 ++ f]
  | .fg3L a f => longBytes a ++ [10#4 ++ f]
  | .acc board pair r => accBytes board pair r
  | .bstop => [0x00#8, 0x41#8]
  | .pomwbS a v data => shortBytes a ++ pomCvBytes 3#2 v ++ [data]
  | .pomwbL a v data => longBytes a ++ pomCvBytes 3#2 v ++ [data]
  | .pomwbA board pair v data => accBytes board pair false ++ pomCvBytes 3#2 v ++ [data]
  | .pombitS a v val pos => shortBytes a ++ pomCvBytes 2#2 v ++ [writeBitByte val pos]
  | .pombitL a v val pos => longBytes a ++ pomCvBytes 2#2 v ++ [writeBitByte val pos]
  | .pombitA board pair v val pos =>
    accBytes board pair false ++ pomCvBytes 2#2 v ++ [writeBitByte val pos]
  | .svcReset => [0x00#8, 0x00#8]
  | .svcPgwr page => [0x7D#8, page]
  | .svcRegwr reg data => [30#6 ++ reg, data]
  | .svcWrbyte v data => svcCvBytes 3#2 v ++ [data]
  | .svcVfbyte v data => svcCvBytes 1#2 v ++ [data]
  | .svcVfbit v pos => svcCvBytes 2#2 v ++ [verifyBitByte pos]
  | .svcWrbit v val pos => svcCvBytes 2#2 v ++ [writeBitByte val pos]

/-- The payload as the one number that spec/opcode_table.json numbers: the first byte is the most
significant, bit 0 is the last byte's least significant bit (R8). -/
def tableNumber (bs : List Byte) : Nat := bs.foldl (fun n b => n * 256 + b.toNat) 0

/-- The `k` bytes of a table number, most significant first: the inverse of `tableNumber`. -/
def tableBytes : Nat → Nat → List Byte
  | 0, _ => []
  | k + 1, w => BitVec.ofNat 8 (w / 256 ^ k) :: tableBytes k w

/-- One row of spec/opcode_table.json: the number of payload bytes, `match` and `mask`. -/
structure TableRow where
  bytes : Nat
  pattern : Nat
  mask : Nat
  deriving DecidableEq, Repr

/-- The row of spec/opcode_table.json an instruction is written under. -/
def Instr.row : Instr → TableRow
  | .idle => ⟨2, 0xFF00, 0xFFFF⟩
  | .spd28S _ _ _ => ⟨2, 0x0040, 0x80C0⟩
  | .spd28L _ _ _ => ⟨3, 0xC00040, 0xC000C0⟩
  | .spd128S _ _ _ => ⟨3, 0x003F00, 0x80FF00⟩
  | .spd128L _ _ _ => ⟨4, 0xC0003F00, 0xC000FF00⟩
  | .estop28S _ _ => ⟨2, 0x0041, 0x80DF⟩
  | .estop28L _ _ => ⟨3, 0xC00041, 0xC000DF⟩
  | .estop128S _ => ⟨3, 0x003F01, 0x80FFFF⟩
  | .estop128L _ => ⟨4, 0xC0003F01, 0xC000FFFF⟩
  | .fg1S _ _ => ⟨2, 0x0080, 0x80E0⟩
  | .fg1L _ _ => ⟨3, 0xC00080, 0xC000E0⟩
  | .fg2S _ _ => ⟨2, 0x00B0, 0x80F0⟩
  | .fg2L _ _ => ⟨3, 0xC000B0, 0xC000F0⟩
  | .fg3S _ _ => ⟨2, 0x00A0, 0x80F0⟩
  | .fg3L _ _ => ⟨3, 0xC000A0, 0xC000F0⟩
  | .acc _ _ _ => ⟨2, 0x8088, 0xC088⟩
  | .bstop => ⟨2, 0x0041, 0xFFFF⟩
  | .pomwbS _ _ _ => ⟨4, 0x00EC0000, 0x80FC0000⟩
  | .pomwbL _ _ _ => ⟨5, 0xC000EC0000, 0xC000FC0000⟩
  | .pomwbA _ _ _ _ => ⟨5, 0x8088EC0000, 0xC089FC0000⟩
  | .pombitS _ _ _ _ => ⟨4, 0x00E800F0, 0x80FC00F0⟩
  | .pombitL _ _ _ _ => ⟨5, 0xC000E800F0, 0xC000FC00F0⟩
  | .pombitA _ _ _ _ _ => ⟨5, 0x8088E800F0, 0xC089FC00F0⟩
  | .svcReset => ⟨2, 0x0000, 0xFFFF⟩
  | .svcPgwr _ => ⟨2, 0x7D00, 0xFF00⟩
  | .svcRegwr _ _ => ⟨2, 0x7800, 0xFC00⟩
  | .svcWrbyte _ _ => ⟨3, 0x7C0000, 0xFC0000⟩
  | .svcVfbyte _ _ => ⟨3, 0x740000, 0xFC0000⟩
  | .svcVfbit _ _ => ⟨3, 0x7800E8, 0xFC00F8⟩
  | .svcWrbit _ _ _ => ⟨3, 0x7800F0, 0xFC00F0⟩

/-- How many of the low `k` bits of `n` are 1. -/
def countOnes : Nat → Nat → Nat
  | 0, _ => 0
  | k + 1, n => n % 2 + countOnes k (n / 2)

/-- How many bits a row fixes. -/
def TableRow.fixed (r : TableRow) : Nat := countOnes 40 r.mask

/-- The families in the order of the opcode table. -/
def tableFamilies : List Family := [.loco, .function, .accessory, .estop, .pom, .service]

/-- Of two readings of one table word, the one whose row fixes more bits; at a tie the earlier row. -/
def moreFixed (best : Option Instr) (i : Instr) : Option Instr :=
  match best with
  | none => some i
  | some b => if b.row.fixed < i.row.fixed then some i else some b

/-- The readings of payload bytes in the six families, in table order. -/
def readings (bs : List Byte) : List Instr :=
  tableFamilies.filterMap fun f => (decode f bs).toOption

/-- The instruction the decoder reads from a word of spec/opcode_table.json. A table word names no
family; where two families read the same bytes, the row that fixes more bits is taken (log entry 10). -/
def decodeTableWord (nbits w : Nat) : Option Instr :=
  if nbits % 8 = 0 ∧ w < 2 ^ nbits then
    (readings (tableBytes (nbits / 8) w)).foldl moreFixed none
  else none

end Sys2Proof
end

