-- ==== Sys2Proof/Machine/State.lean ====
section
/-! DEFINITION. The state of the core: the records of spec/10_state.md R20 to R40, the parameters of
spec/00_scope.md R7, the inputs still to come, and the reset state of R44. Plain data throughout. -/

namespace Sys2Proof.Machine

/-- Six packet bytes (R21, R23). -/
structure PacketBytes where
  b0 : Byte
  b1 : Byte
  b2 : Byte
  b3 : Byte
  b4 : Byte
  b5 : Byte
  deriving DecidableEq, Repr

/-- The TransmitBuffer `shared` (R21, R22, R28). -/
structure Shared where
  /-- packet bytes in transmission order, R21 -/
  data : PacketBytes
  /-- number of valid bytes, checksum included, R21 -/
  len : BitVec 3
  /-- true: 24-bit preamble requested, R21 -/
  longPreamble : Bool
  /-- the handoff flag, true: free for write, R22 -/
  free : Bool
  /-- the 10 ms scheduling flag, R28 -/
  tick10 : Bool
  /-- the 1 ms flag, R28 -/
  tick1 : Bool
  deriving DecidableEq, Repr

/-- The transmitter's private buffer `tx.buf` (R23). -/
structure TxBuf where
  data : PacketBytes
  len : BitVec 3
  deriving DecidableEq, Repr

/-- The transmitter's private state and its output signals (R23 to R27). -/
structure Tx where
  buf : TxBuf
  /-- the countdown, R24 -/
  cnt : BitVec 6
  /-- the byte index, R24 -/
  bi : BitVec 3
  /-- the lock position of the running preamble, R24 -/
  lock : BitVec 6
  /-- the queued bit, R25 -/
  q : Bool
  /-- the bit being emitted, R25 -/
  cur : Bool
  /-- true: the next step starts the second half-period, R25 -/
  half : Bool
  /-- microseconds since the last 10 ms boundary, R26 -/
  acc10 : Nat
  /-- microseconds since the last 1 ms boundary, R26 -/
  acc1 : Nat
  /-- R27 -/
  pinA : Bool
  /-- R27 -/
  pinB : Bool
  /-- the track-power enable output, R27 -/
  pinEN : Bool
  /-- the timer reload value in microseconds, R27 -/
  period : Nat
  deriving DecidableEq, Repr

/-- The encoder's sequencing state `enc` (R29). -/
structure Enc where
  fam : Family
  li : Nat
  fi : Nat
  fg : Fin 3
  deriving DecidableEq, Repr

/-- One slot of the locomotive table (R30). `fn` is the field `function`. -/
structure Loco where
  addr : BitVec 14
  useLong : Bool
  use128 : Bool
  speedStep : BitVec 8
  forward : Bool
  brake : Bool
  fn : BitVec 16
  estop : BitVec 8
  nudge : BitVec 8
  deriving DecidableEq, Repr

/-- The host-owned fields of a slot, as the boot-time table gives them (R383). -/
structure LocoBoot where
  addr : BitVec 14
  useLong : Bool
  use128 : Bool
  speedStep : BitVec 8
  forward : Bool
  brake : Bool
  fn : BitVec 16
  deriving DecidableEq, Repr

/-- The accessory staging record `acc` (R32). -/
structure Acc where
  addr : BitVec 11
  thrown : Bool
  deriving DecidableEq, Repr

/-- `pom.kind` (R33). -/
inductive PomKind where
  | short
  | long
  | accessory
  deriving DecidableEq, Repr

/-- `pom.state` (R33). -/
inductive PomState where
  | idle
  | byteWrite
  | bitWrite
  deriving DecidableEq, Repr

/-- The ProgramOnMain request `pom` (R33, R38). -/
structure Pom where
  kind : PomKind
  addr : BitVec 14
  cv : BitVec 11
  value : BitVec 8
  bitMode : Bool
  bitValue : Bool
  bitPos : BitVec 3
  state : PomState
  budget : BitVec 3
  timeout : BitVec 8
  deriving DecidableEq, Repr

/-- The thirteen values of `svc.state` (R35). -/
inductive SvcState where
  | idle
  | pgStart
  | pgPgWrite
  | pgReset
  | pgWrite
  | pgReset2
  | dStart
  | dWrite
  | dReset
  | rdStart
  | rdVerify
  | rdReset
  | rdFinal
  deriving DecidableEq, Repr

/-- CV data: 0 to 255, or `none` for the sentinel -1, "unknown/failed" (R34, log entry 5). -/
abbrev CvData := Option Byte

/-- The bit-read cursor: 7 down to 0, or `none` for -1, the byte-verify pass (R34, log entry 5). -/
abbrev Cursor := Option (BitVec 3)

/-- The ServiceModeCV record `svc` (R34, R35, R38). -/
structure Svc where
  cv : BitVec 11
  data : CvData
  page : BitVec 8
  reg : BitVec 2
  paged : Bool
  state : SvcState
  budget : BitVec 4
  cursor : Cursor
  timeout : BitVec 8
  deriving DecidableEq, Repr

/-- `power.sensorMode` (R36, R39). -/
inductive SensorMode where
  | averaging
  | trigger
  deriving DecidableEq, Repr

/-- PowerState, limits and acknowledgement detector `power` (R36, R37, R39). Currents in milliamperes. -/
structure Power where
  busMA : Rat
  busVolts : Rat
  trip : Bool
  enable : Bool
  serviceMode : Bool
  quiescentMA : Rat
  ackBaseMA : Rat
  ackFlag : Bool
  sensorMode : SensorMode
  limitMA : Rat
  limitVolts : Rat
  deriving DecidableEq, Repr

/-- One event of the completion-callback port `cb` (R40). -/
structure Callback where
  cv : BitVec 11
  value : CvData
  deriving DecidableEq, Repr

/-- `VARIANT` (00_scope R7, 40_transmitter R160). -/
inductive Variant where
  | dcc
  | dcPwm
  deriving DecidableEq, Repr

/-- The parameters the model takes as an argument (00_scope R7). No step writes them. -/
structure Params where
  /-- `CNT_LOCK_LONG` -/
  lockLong : BitVec 6
  /-- `ENABLE_1MS` -/
  enable1ms : Bool
  /-- `ESTOP_TIMER_INIT`, OPEN in the spec -/
  estopTimerInit : BitVec 8
  /-- `ACC_THROWN_R` -/
  accThrownR : Bool
  /-- `SAFE_MA` -/
  safeMA : Rat
  nDStart : BitVec 4
  nDWrite : BitVec 4
  nDReset : BitVec 4
  nRdStart : BitVec 4
  nRdVerify : BitVec 4
  nRdReset : BitVec 4
  nRdFinal : BitVec 4
  /-- `POM_TIMEOUT_QS`, OPEN in the spec -/
  pomTimeoutQs : BitVec 8
  /-- `SVC_TIMEOUT_QS`, OPEN in the spec -/
  svcTimeoutQs : BitVec 8
  variant : Variant
  /-- `ESTOP_BCAST_INSTR`, by its direction bit: false is 0x41, true is 0x61 (U22, D20) -/
  estopBcastD : Bool
  /-- `PIN_A`, OPEN in the spec: the GPIO number of the first pin of the antiphase pair; no rule reads it -/
  gpioA : Nat
  /-- `PIN_B`, OPEN in the spec: the GPIO number of the second pin of the pair; no rule reads it -/
  gpioB : Nat
  /-- `PIN_EN`, OPEN in the spec: the GPIO number of the track-power enable output; no rule reads it -/
  gpioEN : Nat
  deriving DecidableEq, Repr

/-- The field and value of an `H_LOCO_WRITE` (R311). -/
inductive LocoWrite where
  | addr (v : BitVec 14)
  | useLong (v : Bool)
  | use128 (v : Bool)
  | speedStep (v : BitVec 8)
  | forward (v : Bool)
  | brake (v : Bool)
  | fn (v : BitVec 16)
  | nudge (v : BitVec 8)
  | estop (v : BitVec 8)
  deriving DecidableEq, Repr

/-- The host commands of spec/47_host_commands.md (R124, R310 to R323). Numbers wider than their field
are cut to it when stored (93_implementation_defined U16, log entry 8). -/
inductive HostCmd where
  /-- `H_LOCO_WRITE(i, field, value)`, R311 -/
  | locoWrite (i : Nat) (w : LocoWrite)
  /-- `H_TICK_CONSUME(i10, u10, i1)`, R312, with the samples ENV supplies -/
  | tickConsume (i10 u10 i1 : Rat)
  /-- `H_ESTOP_TICK`, R313 -/
  | estopTick
  /-- `H_ESTOP_REQ`, R314 -/
  | estopReq
  /-- `H_ACCESSORY(addr, thrown)`, R315 -/
  | accessory (addr : Nat) (thrown : Bool)
  /-- `H_POM_SETUP(kind, bitMode, bitValue, bitPos)`, R316 -/
  | pomSetup (kind : PomKind) (bitMode : Bool) (bitValue bitPos : Nat)
  /-- `writePOMcommand(address, cvRegister, value)`, R316 -/
  | writePom (address cvRegister value : Nat)
  /-- `H_TRIP_CLEAR`, R317 -/
  | tripClear
  /-- `H_SVC_CONFIG(paged)`, R318 -/
  | svcConfig (paged : Bool)
  /-- `writeServiceCommand(cvRegister, cvValue, verify, enterServiceMode, exitServiceMode)`, R318 -/
  | writeService (cvRegister cvValue : Nat) (verify enter exit : Bool)
  /-- `H_POWER(on)`, R319 -/
  | power (on : Bool)
  /-- `H_QTICK`, R321 -/
  | qtick
  /-- consumption of the oldest callback event, R323 -/
  | takeCallback
  deriving DecidableEq, Repr

/-- One turn of the interleaving (20_memory R81, R82; log entry 1). -/
inductive Event where
  /-- the timer expires: one `TX_STEP` (R142) -/
  | tx
  /-- the main loop calls the encoder: one `ENC_STEP` (R170) -/
  | enc
  /-- one host command (R310) -/
  | host (c : HostCmd)
  /-- `RESET(table, I_LIMIT_MA, V_LIMIT)` (R380) -/
  | reset (table : List LocoBoot) (limitMA limitVolts : Rat)
  /-- the MODEL's own, no turn of the hardware: an encoder turn whose payload bytes come from outside
  instead of from DISPATCH (log entry 2). No step of the model puts it into an agenda. -/
  | load (f : Family) (bs : List Byte)
  deriving DecidableEq, Repr

/-- The whole machine (R20), with its parameters and the turns still to come. -/
structure State where
  shared : Shared
  tx : Tx
  enc : Enc
  loco : List Loco
  acc : Acc
  pom : Pom
  svc : Svc
  power : Power
  cb : List Callback
  par : Params
  agenda : List Event
  deriving DecidableEq, Repr

/-- What stops the machine because a state is outside the ranges of the spec. The hardware itself has no
fault state (R345): no state reachable from a legal reset raises any of these. -/
inductive Fault where
  /-- Raised by a packet of the Loco or Function family when its round-robin index is not below
  `N_LOCO` (U15). Safe: the hardware never gets there. -/
  | slotIndexRange
  /-- Raised by `TX_NEXT_BIT` at countdown 0, which no rule reaches (R24, R143). Safe. -/
  | countdownRange
  /-- Raised by `TX_NEXT_BIT` at a data-bit position whose byte index is 6 or 7 (R24, R148). Safe. -/
  | byteIndexRange
  /-- Raised by `TX_NEXT_BIT` at the end of a packet when `tx.buf.len` is 0 (R149, U1). Safe. -/
  | emptyPacket
  deriving DecidableEq, Repr

/-- What the model refuses. -/
inductive Refusal where
  /-- An instruction without a meaning. Raised by no arm: all 30 rows are modelled. Safe. -/
  | notModelled (mnemonic : String)
  /-- Raised by every step when `VARIANT = DC_PWM` (R160, U2). Safe. -/
  | dcPwmVariant
  /-- Raised by every step when `CNT_LOCK_LONG` is outside 10 to 33 (R145, U3). Safe. -/
  | lockLongRange
  /-- Raised by every step when `N_LOCO = 0` (R7, U4). Safe. -/
  | noLocoSlots
  /-- Raised by every step when another parameter is outside its constraint (R7, R174). Safe. -/
  | parameterRange
  /-- Raised by `COPY_SHARED` when `shared.len` is 7 (R146). Safe. -/
  | packetTooLong
  /-- Raised by `H_LOCO_WRITE` to a slot number that is not below `N_LOCO` (R311). Safe. -/
  | noSuchSlot
  /-- Raised by an encoder turn whose bytes are no packet of their family; DISPATCH never assembles
  such bytes (R120). Safe. -/
  | undecodable (why : Reject)
  deriving DecidableEq, Repr

/-- A slot right after reset: the host-owned fields of the table, both counters 0 (R44, R383). -/
def bootSlot (b : LocoBoot) : Loco :=
  { addr := b.addr, useLong := b.useLong, use128 := b.use128, speedStep := b.speedStep,
    forward := b.forward, brake := b.brake, fn := b.fn, estop := 0, nudge := 0 }

/-- An unused entry of the boot-time table: `addr = 0` (R383). -/
def emptyBoot : LocoBoot :=
  { addr := 0, useLong := false, use128 := false, speedStep := 0, forward := false, brake := false,
    fn := 0 }

/-- The locomotive table of fixed capacity `n` that a boot-time table gives: entries beyond the capacity
are dropped, slots the table does not name are empty (R30, R383, log entry 12). -/
def bootTable : Nat → List LocoBoot → List Loco
  | 0, _ => []
  | n + 1, [] => bootSlot emptyBoot :: bootTable n []
  | n + 1, b :: bs => bootSlot b :: bootTable n bs

/-- The idle packet in a buffer: `FF 00 FF 00 00 00` (R44). -/
def idleBytes : PacketBytes := ⟨0xFF, 0x00, 0xFF, 0x00, 0x00, 0x00⟩

/-- `RESET(table, I_LIMIT_MA, V_LIMIT)` (R380): the state of R44 for `n` slots, with the turns `agenda`
still to come. The values of `period`, `acc`, the idle part of `pom` and `svc.cv`, `page`, `reg` are the
model's own (DESIGN CHOICE, log entry 4). -/
def State.boot (par : Params) (n : Nat) (table : List LocoBoot) (limitMA limitVolts : Rat)
    (agenda : List Event) : State :=
  { shared := { data := idleBytes, len := 3, longPreamble := false, free := false, tick10 := false,
                tick1 := false }
    tx := { buf := { data := idleBytes, len := 3 }, cnt := Config.cntInitShort, bi := 0,
            lock := Config.cntLockShort, q := true, cur := true, half := false, acc10 := 0, acc1 := 0,
            pinA := false, pinB := false, pinEN := false, period := 0 }
    enc := { fam := .loco, li := 0, fi := 0, fg := 0 }
    loco := bootTable n table
    acc := { addr := 0, thrown := false }
    pom := { kind := .short, addr := 0, cv := 0, value := 0, bitMode := false, bitValue := false,
             bitPos := 0, state := .idle, budget := 0, timeout := 0 }
    svc := { cv := 0, data := none, page := 0, reg := 0, paged := false, state := .idle, budget := 0,
             cursor := none, timeout := 0 }
    power := { busMA := 0, busVolts := 0, trip := false, enable := false, serviceMode := false,
               quiescentMA := 0, ackBaseMA := 0, ackFlag := false, sensorMode := .averaging,
               limitMA := limitMA, limitVolts := limitVolts }
    cb := []
    par := par
    agenda := agenda }

/-- The defaults of 00_scope R7; of the OPEN parameters the stop timer and the two timeouts have the values of the
scenarios P3, P4 and P6 of 95_test_vectors, and the GPIO numbers are 0, 1 and 2 (DESIGN CHOICE, log entry 3). -/
def Params.default : Params :=
  { lockLong := 31, enable1ms := true, estopTimerInit := 5, accThrownR := false, safeMA := 0,
    nDStart := 3, nDWrite := 5, nDReset := 6, nRdStart := 3, nRdVerify := 5, nRdReset := 6,
    nRdFinal := 3, pomTimeoutQs := 8, svcTimeoutQs := 12, variant := .dcc, estopBcastD := false,
    gpioA := 0, gpioB := 1, gpioEN := 2 }

/-- The machine right after reset (R44, R380): two slots, an all-empty table (legal, R383), limits
1000 mA and 20 V, default parameters, nothing scheduled (DESIGN CHOICE, log entry 3). -/
def State.reset : State := State.boot Params.default 2 [] 1000 20 []

end Sys2Proof.Machine
end

