-- ==== Sys2Proof/Machine/Flags.lean ====
section
/-! DEFINITION. Everything that is computed only to be tested or to check a packet: the checksum
(spec/30_encoding.md R103), the trip conditions (spec/46_power_monitor.md R292), the acknowledgement test
(R297) and the constraints on the parameters (spec/00_scope.md R7). The hardware has no arithmetic
condition codes (spec/10_state.md R42). -/

namespace Sys2Proof.Machine

/-- `XOR(b0..bk)`; of no bytes it is 0 (00_scope R9, 30_encoding R103). -/
def xorBytes (bs : List Byte) : Byte := bs.foldr (fun b x => b ^^^ x) 0

/-- `OVER_CURRENT` (R292): strict, on the smoothed current; the service-mode threshold is the quiescent
baseline + 250 mA, the normal one the configured limit. -/
def overCurrent (p : Power) : Bool :=
  if p.serviceMode then decide (p.quiescentMA + Config.svcTripDeltaMA < p.busMA)
  else decide (p.limitMA < p.busMA)

/-- `OVER_VOLTAGE` (R292): strict, on the smoothed voltage. -/
def overVoltage (p : Power) : Bool := decide (p.limitVolts < p.busVolts)

/-- The acknowledgement test on a raw sample `i` (R297): armed, and more than 20 mA above the baseline. -/
def ackSeen (p : Power) (i : Rat) : Bool :=
  decide (p.sensorMode = .trigger) && decide (Config.ackDeltaMA < i - p.ackBaseMA)

/-- `10 <= CNT_LOCK_LONG <= 33` (R145, U3). -/
def lockLongOk (p : Params) : Bool := decide (10 ≤ p.lockLong.toNat) && decide (p.lockLong.toNat ≤ 33)

/-- Every repeat count is at least 1 (R174: a burst of `N >= 1` packets). -/
def repeatsOk (p : Params) : Bool :=
  p.nDStart != 0 && p.nDWrite != 0 && p.nDReset != 0 && p.nRdStart != 0 && p.nRdVerify != 0 &&
    p.nRdReset != 0 && p.nRdFinal != 0

/-- The ranges of the OPEN parameters and of `SAFE_MA` (R7: `1 <= v`; R36: a current is `>= 0`). -/
def openOk (p : Params) : Bool :=
  p.estopTimerInit != 0 && p.pomTimeoutQs != 0 && p.svcTimeoutQs != 0 && decide (0 ≤ p.safeMA)

/-- A configuration the spec gives no behaviour to, by name (R160, U2, U3, U4, R7). -/
def configStop (s : State) : Option Refusal :=
  if s.par.variant = .dcPwm then some .dcPwmVariant
  else if s.loco = [] then some .noLocoSlots
  else if !lockLongOk s.par then some .lockLongRange
  else if !(repeatsOk s.par && openOk s.par) then some .parameterRange
  else none

end Sys2Proof.Machine
end

