-- ==== Sys2Proof/Machine/Operands.lean ====
section
/-! DEFINITION. The payload bytes that the packet families assemble from the records, written from the
pseudocode of spec/42_loco_function.md to spec/45_service_mode.md: address bytes, speed transforms,
function groups, accessory address, CV address, page and register. -/

namespace Sys2Proof.Machine

/-- A bit as a byte, 0 or 1. -/
def bitByte (b : Bool) : Byte := if b then 1 else 0

/-- `ADDR_S(a) = [ a[6:0] ]` (R191). -/
def addrShort (a : BitVec 14) : List Byte := [a.setWidth 8 &&& 0x7F]

/-- `ADDR_L(a) = [ 0xC0 | a[13:8], a[7:0] ]` (R192). -/
def addrLong (a : BitVec 14) : List Byte := [0xC0#8 ||| (a >>> 8).setWidth 8, a.setWidth 8]

/-- The address bytes of a slot (R191, R192, R200). -/
def locoAddr (l : Loco) : List Byte := if l.useLong then addrLong l.addr else addrShort l.addr

/-- The UI-domain step after braking: half the step value, rounded down (R197). -/
def brakedStep (l : Loco) : BitVec 8 := if l.brake then l.speedStep >>> 1 else l.speedStep

/-- `STEP28(s)` (R193). -/
def step28 (s : BitVec 8) : BitVec 5 :=
  if s = 0 then 0
  else
    let v := (s + 3) &&& 0x1F
    let w := v ||| ((v &&& 1) <<< 5)
    ((w >>> 1) &&& 0x1F).setWidth 5

/-- `STEP128(s)` (R194). -/
def step128 (s : BitVec 8) : BitVec 7 :=
  if s = 0 then 0 else ((s + 1) &&& 0x7F).setWidth 7

/-- The direction bit: the stored direction, or bit 0 of the nudge counter while nudging (R195). -/
def directionBit (l : Loco) : Bool := if l.nudge = 0 then l.forward else l.nudge.getLsbD 0

/-- The 28-step line speed code, forced to the maximum while nudging (R193, R195). -/
def lineCode28 (l : Loco) : BitVec 5 := if l.nudge = 0 then step28 (brakedStep l) else 0x1F

/-- The 128-step line speed code, forced to the maximum while nudging (R194, R195). -/
def lineCode128 (l : Loco) : BitVec 7 := if l.nudge = 0 then step128 (brakedStep l) else 0x7F

/-- The 28-step instruction byte; an emergency stop keeps the direction and forces code 1
(R198, R200, R202). -/
def speedInstr28 (l : Loco) : Byte :=
  let instr := 0x40#8 ||| (bitByte (directionBit l) <<< 5) ||| (lineCode28 l).setWidth 8
  if l.estop = 0 then instr else (instr &&& 0x60) ||| 0x01

/-- The 128-step speed byte; an emergency stop is 0x01 whatever the direction (R198, R201, R203). -/
def speedByte128 (l : Loco) : Byte :=
  if l.estop = 0 then (bitByte (directionBit l) <<< 7) ||| (lineCode128 l).setWidth 8 else 0x01

/-- The payload of the Loco family for a slot (R209): `IDLE` when it is empty (R199). -/
def locoPayload (l : Loco) : List Byte :=
  if l.addr = 0 then [0xFF, 0x00]
  else if l.use128 then locoAddr l ++ [0x3F, speedByte128 l]
  else locoAddr l ++ [speedInstr28 l]

/-- `FG1`: `0x80 | (m[0] << 4) | m[4:1]` (R206). -/
def functionGroup1 (m : BitVec 16) : Byte :=
  0x80#8 ||| (bitByte (m.getLsbD 0) <<< 4) ||| (m >>> 1 &&& 0x0F).setWidth 8

/-- `FG2`: `0xB0 | m[8:5]` (R207). -/
def functionGroup2 (m : BitVec 16) : Byte := 0xB0#8 ||| (m >>> 5 &&& 0x0F).setWidth 8

/-- `FG3`: `0xA0 | m[12:9]` (R208). -/
def functionGroup3 (m : BitVec 16) : Byte := 0xA0#8 ||| (m >>> 9 &&& 0x0F).setWidth 8

/-- The function-group instruction byte of group `fg` (R210). -/
def functionInstr (fg : Fin 3) (m : BitVec 16) : Byte :=
  if fg = 0 then functionGroup1 m else if fg = 1 then functionGroup2 m else functionGroup3 m

/-- The payload of the Function family for a slot and a group (R210). -/
def functionPayload (l : Loco) (fg : Fin 3) : List Byte :=
  if l.addr = 0 then [0xFF, 0x00] else locoAddr l ++ [functionInstr fg l.fn]

/-- The two accessory address bytes for a raw 11-bit address and an output select (R114, R115). -/
def accAddr (raw : BitVec 11) (r : Bool) : List Byte :=
  let board := raw >>> 2
  let pair := raw &&& 3
  [0x80#8 ||| (board &&& 0x3F).setWidth 8,
   0x80#8 ||| ((~~~(board >>> 6) &&& 7).setWidth 8 <<< 4) ||| (1#8 <<< 3) ||| (pair.setWidth 8 <<< 1)
     ||| bitByte r]

/-- The output-select bit: `ACC_THROWN_R` if thrown, else `1 - ACC_THROWN_R` (R114). -/
def accOutput (p : Params) (thrown : Bool) : Bool := if thrown then p.accThrownR else !p.accThrownR

/-- The payload of the Accessory family (R220): `raw = (acc.addr + 3) mod 2048`. -/
def accessoryPayload (p : Params) (a : Acc) : List Byte := accAddr (a.addr + 3) (accOutput p a.thrown)

/-- `ESTOP_BCAST_INSTR` (R7, R221, D20): 0x41, or 0x61 with the direction bit set. -/
def estopBcastInstr (p : Params) : Byte := if p.estopBcastD then 0x61 else 0x41

/-- The payload of the Estop family (R221), as it is published. -/
def estopPayload (p : Params) : List Byte := [0x00, estopBcastInstr p]

/-- `v = (cv - 1) mod 1024` (R116). -/
def cvWire (cv : BitVec 11) : BitVec 10 := (cv - 1).setWidth 10

/-- `POM_ADDR` (R231). -/
def pomAddr (p : Pom) : List Byte :=
  match p.kind with
  | .short => addrShort p.addr
  | .long => addrLong p.addr
  | .accessory => accAddr (p.addr.setWidth 11 + 3) false

/-- An instruction byte with `v[9:8]` in its low bits, and `v[7:0]` (R116, R232). -/
def cvBytes (op : Byte) (v : BitVec 10) : List Byte := [op ||| (v >>> 8).setWidth 8, v.setWidth 8]

/-- `BUILD_POMWB` (R233). -/
def pomByteWritePayload (p : Pom) : List Byte := pomAddr p ++ cvBytes 0xEC#8 (cvWire p.cv) ++ [p.value]

/-- `BUILD_POMBIT` (R234). -/
def pomBitWritePayload (p : Pom) : List Byte :=
  pomAddr p ++ cvBytes 0xE8#8 (cvWire p.cv) ++
    [0xF0#8 ||| (bitByte p.bitValue <<< 3) ||| p.bitPos.setWidth 8]

/-- The builder `ENC_POM` chooses by the state tag (R235). -/
def pomPayload (p : Pom) : List Byte :=
  match p.state with
  | .byteWrite => pomByteWritePayload p
  | .bitWrite => pomBitWritePayload p
  | .idle => pomBitWritePayload p

/-- `svc.data` as a packet byte: the low 8 bits of its value (R126 a); the sentinel -1, which no rule
sends, would be 0xFF (log entry 5). -/
def dataByte : CvData → Byte
  | some b => b
  | none => 0xFF

/-- `BUILD_SVC_VFBIT` (R256) in the bit passes, `BUILD_SVC_VFBYTE` (R255) in the pass with cursor -1. -/
def verifyPayload (v : Svc) : List Byte :=
  match v.cursor with
  | some k => cvBytes 0x78#8 (cvWire v.cv) ++ [0xE8#8 ||| k.setWidth 8]
  | none => cvBytes 0x74#8 (cvWire v.cv) ++ [dataByte v.data]

/-- `BUILD_SVC_RESET` (R251). -/
def svcResetPayload : List Byte := [0x00, 0x00]

/-- The packet of a service state (R258, R251 to R256). -/
def servicePayload (v : Svc) : List Byte :=
  match v.state with
  | .idle => svcResetPayload
  | .pgStart => svcResetPayload
  | .pgPgWrite => [0x7D, v.page]
  | .pgReset => svcResetPayload
  | .pgWrite => [0x78#8 ||| v.reg.setWidth 8, dataByte v.data]
  | .pgReset2 => svcResetPayload
  | .dStart => svcResetPayload
  | .dWrite => cvBytes 0x7C#8 (cvWire v.cv) ++ [dataByte v.data]
  | .dReset => svcResetPayload
  | .rdStart => svcResetPayload
  | .rdVerify => verifyPayload v
  | .rdReset => svcResetPayload
  | .rdFinal => svcResetPayload

/-- `page = (((cv - 1) div 4) + 1) mod 256` (R117), with `cv - 1` modulo 1024 (R318 corner case c). -/
def pageOf (cv : BitVec 11) : BitVec 8 := (cvWire cv >>> 2).setWidth 8 + 1

/-- `reg = (cv - 1) mod 4` (R117). -/
def regOf (cv : BitVec 11) : BitVec 2 := (cvWire cv).setWidth 2

end Sys2Proof.Machine
end

