-- ==== Sys2Proof/Machine/Ops.lean ====
section
/-! DEFINITION. The named operations over the records: one setter for each record, the byte access of a
buffer, the claim and PUBLISH (spec/41_encoder_core.md R171, R172), BURST (R174), the acknowledgement
detector (spec/46_power_monitor.md R296, R298), the two conditions the core can signal
(spec/60_exceptions.md R341, R342: the hardware has no trap, a condition is a state change), the recovery
from a trip, and the aborts (spec/47_host_commands.md R320). -/

namespace Sys2Proof.Machine

/-- The state with the record `shared` replaced. -/
def setShared (s : State) (v : Shared) : State := { s with shared := v }
/-- The state with the record `tx` replaced. -/
def setTx (s : State) (v : Tx) : State := { s with tx := v }
/-- The state with the record `enc` replaced. -/
def setEnc (s : State) (v : Enc) : State := { s with enc := v }
/-- The state with the locomotive table replaced. -/
def setLoco (s : State) (v : List Loco) : State := { s with loco := v }
/-- The state with the record `acc` replaced. -/
def setAcc (s : State) (v : Acc) : State := { s with acc := v }
/-- The state with the record `pom` replaced. -/
def setPom (s : State) (v : Pom) : State := { s with pom := v }
/-- The state with the record `svc` replaced. -/
def setSvc (s : State) (v : Svc) : State := { s with svc := v }
/-- The state with the record `power` replaced. -/
def setPower (s : State) (v : Power) : State := { s with power := v }
/-- The state with the callback port replaced. -/
def setCb (s : State) (v : List Callback) : State := { s with cb := v }
/-- The state with the turns still to come replaced. -/
def setAgenda (s : State) (v : List Event) : State := { s with agenda := v }

/-- The turn at the head of the agenda is used up. -/
def popTurn (s : State) : State := setAgenda s s.agenda.tail

/-- The family tag replaced (R176, R314 to R318). -/
def setFam (s : State) (f : Family) : State := setEnc s { s.enc with fam := f }

/-- Byte `i` of a buffer, for `i` in 0 to 5 (R21). -/
def packetByte (d : PacketBytes) : Nat → Option Byte
  | 0 => some d.b0
  | 1 => some d.b1
  | 2 => some d.b2
  | 3 => some d.b3
  | 4 => some d.b4
  | 5 => some d.b5
  | _ => none

/-- Byte `i` of a buffer replaced. -/
def setPacketByte (d : PacketBytes) (i : Nat) (b : Byte) : PacketBytes :=
  match i with
  | 0 => { d with b0 := b }
  | 1 => { d with b1 := b }
  | 2 => { d with b2 := b }
  | 3 => { d with b3 := b }
  | 4 => { d with b4 := b }
  | 5 => { d with b5 := b }
  | _ => d

/-- The bytes `bs` written from index `i` on; the other bytes keep what they hold (R172). -/
def writeFrom (d : PacketBytes) : Nat → List Byte → PacketBytes
  | _, [] => d
  | i, b :: bs => writeFrom (setPacketByte d i b) (i + 1) bs

/-- The six bytes of a buffer in transmission order (R21). -/
def packetList (d : PacketBytes) : List Byte := [d.b0, d.b1, d.b2, d.b3, d.b4, d.b5]

/-- The claim (R171): the handoff flag is cleared; the encoder's turn is used up. -/
def claim (s : State) : State := popTurn (setShared s { s.shared with free := false })

/-- `PUBLISH(b[0..n-1], lp)` (R172): payload, checksum, length and preamble flag. -/
def publish (bs : List Byte) (lp : Bool) (s : State) : State :=
  setShared s { s.shared with
    data := writeFrom s.shared.data 0 (bs ++ [xorBytes bs])
    len := BitVec.ofNat 3 (bs.length + 1)
    longPreamble := lp }

/-- The budget after one call of `BURST(B, N, build)` (R174): `N` is loaded when no burst runs, then one
is taken off. -/
def burstBudget {w : Nat} (b n : BitVec w) : BitVec w := (if b = 0 then n else b) - 1

/-- `ARM_ACK` (R265, R296). -/
def armAck (p : Power) : Power :=
  { p with ackBaseMA := p.busMA, ackFlag := false, sensorMode := .trigger }

/-- `DISARM_ACK` (R298). -/
def disarmAck (p : Power) : Power := { p with sensorMode := .averaging }

/-- `signal VerifyFailure` (R267, R341): the CV data become the unknown sentinel. -/
def signalVerifyFailure (v : Svc) : Svc := { v with data := none }

/-- `signal PowerTrip` (R293, R342): the trip flag is set, the enable flag is cleared. -/
def signalPowerTrip (p : Power) : Power := { p with trip := true, enable := false }

/-- The clear of a trip by an operator (R317): nothing when no trip is current. -/
def clearTrip (p : Power) : Power := if p.trip then { p with trip := false, enable := true } else p

/-- The recovery action of the Estop family (R221): a current trip is cleared, power is requested again
and the smoothed current is replaced by `SAFE_MA`. -/
def recoverTrip (safe : Rat) (p : Power) : Power :=
  if p.trip then { p with trip := false, busMA := safe, enable := true } else p

/-- `cb.emit(r, x)` (R268). -/
def emitCallback (s : State) (r : BitVec 11) (x : CvData) : State := setCb s (s.cb ++ [⟨r, x⟩])

/-- `POM_ABORT` (R320). -/
def pomAbort (s : State) : State := setPom s { s.pom with state := .idle, budget := 0 }

/-- `SVC_ABORT` (R320). -/
def svcAbort (s : State) : State :=
  setPower (setSvc s { s.svc with state := .idle, budget := 0 }) (disarmAck s.power)

end Sys2Proof.Machine
end

