-- ==== Sys2Proof/Machine/LocoFamily.lean ====
section
/-! DEFINITION. The Loco family (spec/42_loco_function.md R190 to R203, R209) and `IDLE` (R199), which the
Function family also builds. A meaning is one claim that publishes the instruction's packet and advances
the family; the operands were computed from the slot when DISPATCH assembled the packet. -/

namespace Sys2Proof.Machine

/-- The round-robin index after `i`, wrapping at the table's capacity (R196, R205, R126 g). -/
def nextIndex (i n : Nat) : Nat := (i + 1) % n

/-- The Loco index moves on and the tag goes to FUNCTION (R196). -/
def advanceLoco (s : State) : State :=
  setEnc s { s.enc with li := nextIndex s.enc.li s.loco.length, fam := .function }

/-- A nudging slot keeps the index; its counter is taken down by one and the tag goes to FUNCTION
(R195, R196). -/
def holdLoco (l : Loco) (s : State) : State :=
  setFam (setLoco s (s.loco.set s.enc.li { l with nudge := l.nudge - 1 })) .function

/-- The end of `ENC_LOCO` for an occupied slot (R209). -/
def finishLoco (l : Loco) (s : State) : State := if l.nudge = 0 then advanceLoco s else holdLoco l s

/-- A claim of the Loco family that publishes a packet for the slot `enc.li` (R209). -/
def locoPacket (bs : List Byte) (s : State) : Host.Outcome State Fault Refusal :=
  match s.loco[s.enc.li]? with
  | none => .fault .slotIndexRange
  | some l => .next (finishLoco l (publish bs false (claim s)))

/-- The Function group moves on, and at its wrap the Function index; the tag goes to LOCO (R205). -/
def advanceFunction (s : State) : State :=
  setEnc s { s.enc with
    fg := s.enc.fg + 1
    fi := if s.enc.fg + 1 = 0 then nextIndex s.enc.fi s.loco.length else s.enc.fi
    fam := .loco }

/-- A claim of the Function family that publishes a packet for the slot `enc.fi` (R210). -/
def functionPacket (bs : List Byte) (s : State) : Host.Outcome State Fault Refusal :=
  match s.loco[s.enc.fi]? with
  | none => .fault .slotIndexRange
  | some _ => .next (advanceFunction (publish bs false (claim s)))

/-- An idle packet of the Loco family: an empty slot never holds the index (R196, R199, R209). -/
def idleLocoPacket (bs : List Byte) (s : State) : Host.Outcome State Fault Refusal :=
  match s.loco[s.enc.li]? with
  | none => .fault .slotIndexRange
  | some _ => .next (advanceLoco (publish bs false (claim s)))

/-- `IDLE` (R199): under the tag FUNCTION the Function family's packet for an empty slot, otherwise the
Loco family's. -/
def execIdle (s : State) : Host.Outcome State Fault Refusal :=
  if s.enc.fam = .function then functionPacket (encode .idle) s else idleLocoPacket (encode .idle) s

/-- `SPD28.S` (R200). -/
def execSpd28S (a : BitVec 7) (d : Bool) (code : BitVec 5) (s : State) :
    Host.Outcome State Fault Refusal := locoPacket (encode (.spd28S a d code)) s

/-- `SPD28.L` (R200). -/
def execSpd28L (a : BitVec 14) (d : Bool) (code : BitVec 5) (s : State) :
    Host.Outcome State Fault Refusal := locoPacket (encode (.spd28L a d code)) s

/-- `SPD128.S` (R201). -/
def execSpd128S (a : BitVec 7) (d : Bool) (code : BitVec 7) (s : State) :
    Host.Outcome State Fault Refusal := locoPacket (encode (.spd128S a d code)) s

/-- `SPD128.L` (R201). -/
def execSpd128L (a : BitVec 14) (d : Bool) (code : BitVec 7) (s : State) :
    Host.Outcome State Fault Refusal := locoPacket (encode (.spd128L a d code)) s

/-- `ESTOP28.S` (R202). -/
def execEstop28S (a : BitVec 7) (d : Bool) (s : State) : Host.Outcome State Fault Refusal :=
  locoPacket (encode (.estop28S a d)) s

/-- `ESTOP28.L` (R202). -/
def execEstop28L (a : BitVec 14) (d : Bool) (s : State) : Host.Outcome State Fault Refusal :=
  locoPacket (encode (.estop28L a d)) s

/-- `ESTOP128.S` (R203). -/
def execEstop128S (a : BitVec 7) (s : State) : Host.Outcome State Fault Refusal :=
  locoPacket (encode (.estop128S a)) s

/-- `ESTOP128.L` (R203). -/
def execEstop128L (a : BitVec 14) (s : State) : Host.Outcome State Fault Refusal :=
  locoPacket (encode (.estop128L a)) s

end Sys2Proof.Machine
end

