-- ==== Sys2Proof/Machine/FunctionFamily.lean ====
section
/-! DEFINITION. The Function family (spec/42_loco_function.md R204 to R208, R210). -/

namespace Sys2Proof.Machine

/-- `FG1.S` (R206). -/
def execFg1S (a : BitVec 7) (f : BitVec 5) (s : State) : Host.Outcome State Fault Refusal :=
  functionPacket (encode (.fg1S a f)) s

/-- `FG1.L` (R206). -/
def execFg1L (a : BitVec 14) (f : BitVec 5) (s : State) : Host.Outcome State Fault Refusal :=
  functionPacket (encode (.fg1L a f)) s

/-- `FG2.S` (R207). -/
def execFg2S (a : BitVec 7) (f : BitVec 4) (s : State) : Host.Outcome State Fault Refusal :=
  functionPacket (encode (.fg2S a f)) s

/-- `FG2.L` (R207). -/
def execFg2L (a : BitVec 14) (f : BitVec 4) (s : State) : Host.Outcome State Fault Refusal :=
  functionPacket (encode (.fg2L a f)) s

/-- `FG3.S` (R208). -/
def execFg3S (a : BitVec 7) (f : BitVec 4) (s : State) : Host.Outcome State Fault Refusal :=
  functionPacket (encode (.fg3S a f)) s

/-- `FG3.L` (R208). -/
def execFg3L (a : BitVec 14) (f : BitVec 4) (s : State) : Host.Outcome State Fault Refusal :=
  functionPacket (encode (.fg3L a f)) s

end Sys2Proof.Machine
end

