-- ==== Sys2Proof/Machine/OneShotFamilies.lean ====
section
/-! DEFINITION. The two one-shot families (spec/43_accessory_estop.md R220, R221). -/

namespace Sys2Proof.Machine

/-- `ACC` and `ENC_ACCESSORY` (R220). -/
def execAcc (board : BitVec 9) (pair : BitVec 2) (r : Bool) (s : State) :
    Host.Outcome State Fault Refusal :=
  .next (setFam (publish (encode (.acc board pair r)) false (claim s)) .loco)

/-- Every slot's stop timer is set, empty slots included (R221). -/
def stopAll (v : BitVec 8) (ls : List Loco) : List Loco := ls.map fun l => { l with estop := v }

/-- The side effects of `ENC_ESTOP` (R221): stop timers, then recovery from a current trip. -/
def estopEffects (s : State) : State :=
  setPower (setLoco s (stopAll s.par.estopTimerInit s.loco)) (recoverTrip s.par.safeMA s.power)

/-- `BSTOP` and `ENC_ESTOP` (R221): `PUBLISH([0x00, ESTOP_BCAST_INSTR], false)`, then the side effects. -/
def execBstop (s : State) : Host.Outcome State Fault Refusal :=
  .next (setFam (estopEffects (publish (estopPayload s.par) false (claim s))) .loco)

end Sys2Proof.Machine
end

