-- ==== Sys2Proof/Machine/ProgramOnMain.lean ====
section
/-! DEFINITION. The ProgramOnMain family (spec/44_pom.md R230 to R236): each claim is one call of BURST on
`pom.budget` (R174, R235). -/

namespace Sys2Proof.Machine

/-- The building half of `BURST`: the packet is published only when no burst runs (R174). -/
def pomBuild (bs : List Byte) (s : State) : State :=
  if s.pom.budget = 0 then publish bs false s else s

/-- The counting half of `BURST` and the end of `ENC_POM`: at budget 0 the request goes idle (R235). -/
def pomCount (s : State) : State :=
  let b := burstBudget s.pom.budget Config.pomRepeat
  setPom s { s.pom with budget := b, state := if b = 0 then .idle else s.pom.state }

/-- A claim of the POM family (R235). The family tag stays. -/
def pomPacket (bs : List Byte) (s : State) : Host.Outcome State Fault Refusal :=
  .next (pomCount (pomBuild bs (claim s)))

/-- `POMWB.S` (R233). -/
def execPomwbS (a : BitVec 7) (v : BitVec 10) (data : Byte) (s : State) :
    Host.Outcome State Fault Refusal := pomPacket (encode (.pomwbS a v data)) s

/-- `POMWB.L` (R233). -/
def execPomwbL (a : BitVec 14) (v : BitVec 10) (data : Byte) (s : State) :
    Host.Outcome State Fault Refusal := pomPacket (encode (.pomwbL a v data)) s

/-- `POMWB.A` (R233). -/
def execPomwbA (board : BitVec 9) (pair : BitVec 2) (v : BitVec 10) (data : Byte) (s : State) :
    Host.Outcome State Fault Refusal := pomPacket (encode (.pomwbA board pair v data)) s

/-- `POMBIT.S` (R234). -/
def execPombitS (a : BitVec 7) (v : BitVec 10) (val : Bool) (pos : BitVec 3) (s : State) :
    Host.Outcome State Fault Refusal := pomPacket (encode (.pombitS a v val pos)) s

/-- `POMBIT.L` (R234). -/
def execPombitL (a : BitVec 14) (v : BitVec 10) (val : Bool) (pos : BitVec 3) (s : State) :
    Host.Outcome State Fault Refusal := pomPacket (encode (.pombitL a v val pos)) s

/-- `POMBIT.A` (R234). -/
def execPombitA (board : BitVec 9) (pair : BitVec 2) (v : BitVec 10) (val : Bool) (pos : BitVec 3)
    (s : State) : Host.Outcome State Fault Refusal := pomPacket (encode (.pombitA board pair v val pos)) s

end Sys2Proof.Machine
end

