-- ==== Sys2Proof/Machine/ServiceMode.lean ====
section
/-! DEFINITION. The Service family (spec/45_service_mode.md R250 to R268): each claim is one call of BURST
on `svc.budget` with the count of the running state, followed at its end by the state's exit action. -/

namespace Sys2Proof.Machine

/-- The repeat count `N` of a state (R258). `IDLE` builds nothing; a service packet given from outside
in that state is sent once (log entry 13). -/
def svcRepeat (p : Params) : SvcState → BitVec 4
  | .idle => 1
  | .pgStart => Config.nPgStart
  | .pgPgWrite => Config.nPgPgWrite
  | .pgReset => Config.nPgReset
  | .pgWrite => Config.nPgWrite
  | .pgReset2 => Config.nPgReset2
  | .dStart => p.nDStart
  | .dWrite => p.nDWrite
  | .dReset => p.nDReset
  | .rdStart => p.nRdStart
  | .rdVerify => p.nRdVerify
  | .rdReset => p.nRdReset
  | .rdFinal => p.nRdFinal

/-- The successor of a state (R258); that of `RD_FINAL` is set by `RD_EVAL` (R266). -/
def svcSuccessor : SvcState → SvcState
  | .idle => .idle
  | .pgStart => .pgPgWrite
  | .pgPgWrite => .pgReset
  | .pgReset => .pgWrite
  | .pgWrite => .pgReset2
  | .pgReset2 => .idle
  | .dStart => .dWrite
  | .dWrite => .dReset
  | .dReset => .idle
  | .rdStart => .rdVerify
  | .rdVerify => .rdReset
  | .rdReset => .rdFinal
  | .rdFinal => .idle

/-- The bit-read cursor decremented: 7 down to 0, then -1 (R126 h). -/
def cursorBelow (k : BitVec 3) : Cursor := if k = 0 then none else some (k - 1)

/-- The accumulating byte with bit `k` set (R263, R266). -/
def setCvBit (d : CvData) (k : BitVec 3) : CvData := d.map fun b => b ||| (1#8 <<< k.toNat)

/-- `RD_EVAL` in a bit pass: an acknowledgement sets bit `k`, the cursor moves down, the detector is
armed again and the next pass begins (R266). -/
def rdEvalBit (k : BitVec 3) (s : State) : State :=
  setPower
    (setSvc s { s.svc with
      data := if s.power.ackFlag then setCvBit s.svc.data k else s.svc.data
      cursor := cursorBelow k
      state := .rdStart })
    (armAck s.power)

/-- The result of the byte-verify pass: without an acknowledgement `VerifyFailure` is signalled
(R266, R267). -/
def verifyResult (ack : Bool) (v : Svc) : Svc := if ack then v else signalVerifyFailure v

/-- `RD_EVAL` in the byte-verify pass: the result, the sensor back to averaging, the callback, IDLE
(R266, R268). -/
def rdEvalByte (s : State) : State :=
  let v := verifyResult s.power.ackFlag s.svc
  emitCallback (setPower (setSvc s { v with state := .idle }) (disarmAck s.power)) v.cv v.data

/-- `RD_EVAL`, the exit action of `RD_FINAL` (R266). -/
def rdEval (s : State) : State :=
  match s.svc.cursor with
  | some k => rdEvalBit k s
  | none => rdEvalByte s

/-- The exit action and the successor of the running state (R258, R260). -/
def svcExit (s : State) : State :=
  match s.svc.state with
  | .rdVerify => setPower (setSvc s { s.svc with state := .rdReset }) (armAck s.power)
  | .rdFinal => rdEval s
  | st => setSvc s { s.svc with state := svcSuccessor st }

/-- The building half of `BURST`: the packet is published, with the long preamble, only when no burst
runs (R174, R250). -/
def svcBuild (bs : List Byte) (s : State) : State :=
  if s.svc.budget = 0 then publish bs true s else s

/-- The counting half of `BURST`, and the exit action when the burst is complete (R174, R260). -/
def svcCount (s : State) : State :=
  let b := burstBudget s.svc.budget (svcRepeat s.par s.svc.state)
  let t := setSvc s { s.svc with budget := b }
  if b = 0 then svcExit t else t

/-- A claim of the Service family (R260). The family tag stays. -/
def svcPacket (bs : List Byte) (s : State) : Host.Outcome State Fault Refusal :=
  .next (svcCount (svcBuild bs (claim s)))

/-- `SVC.RESET` (R251). -/
def execSvcReset (s : State) : Host.Outcome State Fault Refusal := svcPacket (encode .svcReset) s

/-- `SVC.PGWR` (R252). -/
def execSvcPgwr (page : Byte) (s : State) : Host.Outcome State Fault Refusal :=
  svcPacket (encode (.svcPgwr page)) s

/-- `SVC.REGWR` (R253). -/
def execSvcRegwr (reg : BitVec 2) (data : Byte) (s : State) : Host.Outcome State Fault Refusal :=
  svcPacket (encode (.svcRegwr reg data)) s

/-- `SVC.WRBYTE` (R254). -/
def execSvcWrbyte (v : BitVec 10) (data : Byte) (s : State) : Host.Outcome State Fault Refusal :=
  svcPacket (encode (.svcWrbyte v data)) s

/-- `SVC.VFBYTE` (R255). -/
def execSvcVfbyte (v : BitVec 10) (data : Byte) (s : State) : Host.Outcome State Fault Refusal :=
  svcPacket (encode (.svcVfbyte v data)) s

/-- `SVC.VFBIT` (R256). -/
def execSvcVfbit (v : BitVec 10) (pos : BitVec 3) (s : State) : Host.Outcome State Fault Refusal :=
  svcPacket (encode (.svcVfbit v pos)) s

/-- `SVC.WRBIT` (R257): the packet is published with the long preamble. No state sequence builds it, so
no sequencer field belongs to it. -/
def execSvcWrbit (v : BitVec 10) (val : Bool) (pos : BitVec 3) (s : State) :
    Host.Outcome State Fault Refusal := .next (publish (encode (.svcWrbit v val pos)) true (claim s))

end Sys2Proof.Machine
end

