-- ==== Sys2Proof/Machine/Dispatch.lean ====
section
/-! DEFINITION. The dispatch: one arm per packet type of spec/opcode_table.json. -/

namespace Sys2Proof.Machine

/-- The meaning of one packet type: what a claim of the encoder that builds it does. -/
def exec (i : Instr) (s : State) : Host.Outcome State Fault Refusal :=
  match i with
  | .idle => Sys2Proof.Machine.execIdle s
  | .spd28S a d code => Sys2Proof.Machine.execSpd28S a d code s
  | .spd28L a d code => Sys2Proof.Machine.execSpd28L a d code s
  | .spd128S a d code => Sys2Proof.Machine.execSpd128S a d code s
  | .spd128L a d code => Sys2Proof.Machine.execSpd128L a d code s
  | .estop28S a d => Sys2Proof.Machine.execEstop28S a d s
  | .estop28L a d => Sys2Proof.Machine.execEstop28L a d s
  | .estop128S a => Sys2Proof.Machine.execEstop128S a s
  | .estop128L a => Sys2Proof.Machine.execEstop128L a s
  | .fg1S a f => Sys2Proof.Machine.execFg1S a f s
  | .fg1L a f => Sys2Proof.Machine.execFg1L a f s
  | .fg2S a f => Sys2Proof.Machine.execFg2S a f s
  | .fg2L a f => Sys2Proof.Machine.execFg2L a f s
  | .fg3S a f => Sys2Proof.Machine.execFg3S a f s
  | .fg3L a f => Sys2Proof.Machine.execFg3L a f s
  | .acc board pair r => Sys2Proof.Machine.execAcc board pair r s
  | .bstop => Sys2Proof.Machine.execBstop s
  | .pomwbS a v data => Sys2Proof.Machine.execPomwbS a v data s
  | .pomwbL a v data => Sys2Proof.Machine.execPomwbL a v data s
  | .pomwbA board pair v data => Sys2Proof.Machine.execPomwbA board pair v data s
  | .pombitS a v val pos => Sys2Proof.Machine.execPombitS a v val pos s
  | .pombitL a v val pos => Sys2Proof.Machine.execPombitL a v val pos s
  | .pombitA board pair v val pos => Sys2Proof.Machine.execPombitA board pair v val pos s
  | .svcReset => Sys2Proof.Machine.execSvcReset s
  | .svcPgwr page => Sys2Proof.Machine.execSvcPgwr page s
  | .svcRegwr reg data => Sys2Proof.Machine.execSvcRegwr reg data s
  | .svcWrbyte v data => Sys2Proof.Machine.execSvcWrbyte v data s
  | .svcVfbyte v data => Sys2Proof.Machine.execSvcVfbyte v data s
  | .svcVfbit v pos => Sys2Proof.Machine.execSvcVfbit v pos s
  | .svcWrbit v val pos => Sys2Proof.Machine.execSvcWrbit v val pos s

end Sys2Proof.Machine
end

