-- ==== Sys2Proof/Machine/Encoder.lean ====
section
/-! DEFINITION. The encoder's step (spec/41_encoder_core.md R170 to R176). The encoder has no program
counter (spec/10_state.md R41): DISPATCH chooses the next packet from the family tag and the records.
Here that choice is the fetch: it assembles the payload bytes; they are read back as a packet of the
opcode table, and `exec` gives the packet its meaning. -/

namespace Sys2Proof.Machine

/-- The family whose packet the next claim builds (R173): under the tags POM and SERVICE with an idle
state tag it is the Loco family. -/
def dispatchFamily (s : State) : Family :=
  match s.enc.fam with
  | .loco => .loco
  | .function => .function
  | .accessory => .accessory
  | .estop => .estop
  | .pom => if s.pom.state = .idle then .loco else .pom
  | .service => if s.svc.state = .idle then .loco else .service

/-- The payload bytes DISPATCH assembles for the next packet, with their family (R173, R209, R210, R220,
R221, R235, R260); for the broadcast stop the bytes of the table's row, whose instruction byte the meaning replaces
by `ESTOP_BCAST_INSTR` (log entry 11); none when a round-robin index is out of range (U15). -/
def assemble (s : State) : Option (Family × List Byte) :=
  match dispatchFamily s with
  | .loco => (s.loco[s.enc.li]?).map fun l => (.loco, locoPayload l)
  | .function => (s.loco[s.enc.fi]?).map fun l => (.function, functionPayload l s.enc.fg)
  | .accessory => some (.accessory, accessoryPayload s.par s.acc)
  | .estop => some (.estop, encode .bstop)
  | .pom => some (.pom, pomPayload s.pom)
  | .service => some (.service, servicePayload s.svc)

/-- The bytes the encoder's turn works on: those given from outside at the head of the agenda, if any
(log entry 2), otherwise those DISPATCH assembles. -/
def fetch (s : State) : Option (Family × List Byte) :=
  match s.agenda with
  | .load f bs :: _ => some (f, bs)
  | _ => assemble s

/-- What a claim does (R170): the packet is assembled, read and given its meaning. -/
def encClaim (s : State) : Host.Outcome State Fault Refusal :=
  match fetch s with
  | none => .fault .slotIndexRange
  | some (f, bs) =>
    match decode f bs with
    | .ok i => exec i s
    | .error e => .refused (.undecodable e)

/-- `ENC_STEP` (R170): a no-op unless the handoff flag is true. -/
def encStep (s : State) : Host.Outcome State Fault Refusal :=
  if s.shared.free then encClaim s else .next (popTurn s)

end Sys2Proof.Machine
end

