-- ==== Sys2Proof/Machine/PowerMonitor.lean ====
section
/-! DEFINITION. The PowerMonitor (spec/46_power_monitor.md R290 to R298): smoothing, trip check,
acknowledgement detector. Its procedures read and write the record `power` only. -/

namespace Sys2Proof.Machine

/-- One step of an exponential moving average with weight `w` (R291). -/
def smooth (w x sample : Rat) : Rat := x + w * (sample - x)

/-- `PM_TRIP_CHECK` (R293). -/
def tripCheck (p : Power) : Power := if overCurrent p || overVoltage p then signalPowerTrip p else p

/-- `PM_TICK10(i, u)` (R291): both averages, then the trip check. -/
def pmTick10 (i u : Rat) (p : Power) : Power :=
  tripCheck { p with busMA := smooth Config.emaWeight p.busMA i
                     busVolts := smooth Config.voltEmaWeight p.busVolts u }

/-- `PM_ACK_SAMPLE(i)` (R297): the flag latches. -/
def pmAckSample (i : Rat) (p : Power) : Power := if ackSeen p i then { p with ackFlag := true } else p

end Sys2Proof.Machine
end

