-- ==== Sys2Proof/Machine/HostCommands.lean ====
section
/-! DEFINITION. The host commands (spec/47_host_commands.md R310 to R323). Each is one atomic step. -/

namespace Sys2Proof.Machine

/-- One field of a slot replaced (R311): no range check. -/
def writeLocoField (l : Loco) : LocoWrite → Loco
  | .addr v => { l with addr := v }
  | .useLong v => { l with useLong := v }
  | .use128 v => { l with use128 := v }
  | .speedStep v => { l with speedStep := v }
  | .forward v => { l with forward := v }
  | .brake v => { l with brake := v }
  | .fn v => { l with fn := v }
  | .nudge v => { l with nudge := v }
  | .estop v => { l with estop := v }

/-- `H_LOCO_WRITE` (R311). -/
def hLocoWrite (i : Nat) (w : LocoWrite) (s : State) : Host.Outcome State Fault Refusal :=
  match s.loco[i]? with
  | none => .refused .noSuchSlot
  | some l => .next (setLoco s (s.loco.set i (writeLocoField l w)))

/-- A sample as the monitor takes it: as ENV supplies it, and a free value where that is negative, which R290
excludes and no rule gives a result for (log entry 14). `n` is the number of turns still to come, so that every turn
has a value of its own. -/
def readSample (kind : Config.SampleKind) (n : Nat) (x : Rat) : Rat :=
  if x < 0 then (Config.freeSample kind n x : Rat) else x

/-- The 10 ms half of `H_TICK_CONSUME` (R312); without the 1 ms flag the detector takes the same sample
(R297). -/
def consumeTick10 (i10 u10 : Rat) (s : State) : State :=
  if s.shared.tick10 then
    let p := pmTick10 i10 u10 s.power
    setPower (setShared s { s.shared with tick10 := false })
      (if s.par.enable1ms then p else pmAckSample i10 p)
  else s

/-- The 1 ms half of `H_TICK_CONSUME` (R312). -/
def consumeTick1 (i1 : Rat) (s : State) : State :=
  if s.par.enable1ms && s.shared.tick1 then
    setPower (setShared s { s.shared with tick1 := false }) (pmAckSample i1 s.power)
  else s

/-- `H_TICK_CONSUME` (R312): the 10 ms work before the 1 ms sample (R355 c). -/
def hTickConsume (i10 u10 i1 : Rat) (s : State) : State :=
  let n := s.agenda.length
  consumeTick1 (readSample .current1 n i1)
    (consumeTick10 (readSample .current10 n i10) (readSample .voltage10 n u10) s)

/-- A stop timer counted down, not below 0 (R313). -/
def countEstop (l : Loco) : Loco := if l.estop = 0 then l else { l with estop := l.estop - 1 }

/-- `H_ESTOP_TICK` (R313). -/
def hEstopTick (s : State) : State := setLoco s (s.loco.map countEstop)

/-- `H_ACCESSORY` (R315). -/
def hAccessory (addr : Nat) (thrown : Bool) (s : State) : State :=
  setFam (setAcc s { addr := BitVec.ofNat 11 addr, thrown := thrown }) .accessory

/-- `H_POM_SETUP` (R316, U16). -/
def hPomSetup (kind : PomKind) (bitMode : Bool) (bitValue bitPos : Nat) (s : State) : State :=
  setPom s { s.pom with kind := kind, bitMode := bitMode, bitValue := bitValue % 2 == 1,
                        bitPos := BitVec.ofNat 3 bitPos }

/-- `writePOMcommand` (R316). -/
def hWritePom (address cvRegister value : Nat) (s : State) : State :=
  setFam (setPom s { s.pom with
    addr := BitVec.ofNat 14 address
    cv := BitVec.ofNat 11 cvRegister
    value := BitVec.ofNat 8 value
    state := if s.pom.bitMode then .bitWrite else .byteWrite
    budget := 0
    timeout := s.par.pomTimeoutQs }) .pom

/-- `writeServiceCommand` with `exitServiceMode` (R318). -/
def exitService (s : State) : State :=
  let t := svcAbort s
  setFam (setPower t { t.power with serviceMode := false }) .loco

/-- `writeServiceCommand` with `enterServiceMode` (R318): the quiescent baseline is captured. -/
def enterService (s : State) : State :=
  let t := svcAbort s
  setFam (setPower t { t.power with serviceMode := true, quiescentMA := t.power.busMA }) .service

/-- The record a CV read or write arms (R318). -/
def armService (v : Svc) (cvRegister cvValue : Nat) (verify : Bool) (timeoutQs : BitVec 8) : Svc :=
  let cv := BitVec.ofNat 11 cvRegister
  { v with
    cv := cv
    page := pageOf cv
    reg := regOf cv
    data := some (if verify then 0 else BitVec.ofNat 8 cvValue)
    cursor := if verify then some 7 else v.cursor
    state := if verify then .rdStart else if v.paged then .pgStart else .dStart
    budget := 0
    timeout := timeoutQs }

/-- `writeServiceCommand` (R318): exit wins over enter; outside service mode a CV command is refused with
no state change. -/
def hWriteService (cvRegister cvValue : Nat) (verify enter exit : Bool) (s : State) : State :=
  if exit then exitService s
  else if enter then enterService s
  else if s.power.serviceMode then
    setFam (setSvc s (armService s.svc cvRegister cvValue verify s.par.svcTimeoutQs)) .service
  else s

/-- `H_POWER(on)` (R319): refused under a trip. -/
def hPower (on : Bool) (s : State) : State :=
  if on && s.power.trip then s else setPower s { s.power with enable := on }

/-- The POM half of `H_QTICK` (R321). -/
def pomQtick (s : State) : State :=
  if s.pom.timeout = 0 then s
  else
    let t := setPom s { s.pom with timeout := s.pom.timeout - 1 }
    if t.pom.timeout = 0 ∧ t.pom.state ≠ .idle then pomAbort t else t

/-- The service half of `H_QTICK` (R321). -/
def svcQtick (s : State) : State :=
  if s.svc.timeout = 0 then s
  else
    let t := setSvc s { s.svc with timeout := s.svc.timeout - 1 }
    if t.svc.timeout = 0 ∧ t.svc.state ≠ .idle then svcAbort t else t

/-- One host command (R310). -/
def hostStep (c : HostCmd) (s : State) : Host.Outcome State Fault Refusal :=
  match c with
  | .locoWrite i w => hLocoWrite i w s
  | .tickConsume i10 u10 i1 => .next (hTickConsume i10 u10 i1 s)
  | .estopTick => .next (hEstopTick s)
  | .estopReq => .next (setFam s .estop)
  | .accessory addr thrown => .next (hAccessory addr thrown s)
  | .pomSetup kind bitMode bitValue bitPos => .next (hPomSetup kind bitMode bitValue bitPos s)
  | .writePom address cvRegister value => .next (hWritePom address cvRegister value s)
  | .tripClear => .next (setPower s (clearTrip s.power))
  | .svcConfig paged => .next (setSvc s { s.svc with paged := paged })
  | .writeService cvRegister cvValue verify enter exit =>
    .next (hWriteService cvRegister cvValue verify enter exit s)
  | .power on => .next (hPower on s)
  | .qtick => .next (svcQtick (pomQtick s))
  | .takeCallback => .next (setCb s s.cb.tail)

end Sys2Proof.Machine
end

