-- ==== Sys2Proof/Machine/Loader.lean ====
section
/-! DEFINITION. How one packet of the opcode table is placed so that the encoder's very next claim builds
it (log entry 2). The encoder selects its packets itself, from the records; so the records are arranged.
Packets that no records give (a long address 0, `SVC.WRBIT`) are given to the encoder's turn from
outside. -/

namespace Sys2Proof.Machine

/-- A step whose `STEP28` is `code` (the inverse of R193; 29 to 32 give the stop and emergency codes). -/
def step28Inverse (code : BitVec 5) : BitVec 8 :=
  let v := ((code.setWidth 8 &&& 0x0F) <<< 1) ||| (code.setWidth 8 >>> 4)
  if code = 0 then 0 else if v = 3 then 32 else (v - 3) &&& 0x1F

/-- A step whose `STEP128` is `code` (the inverse of R194). -/
def step128Inverse (code : BitVec 7) : BitVec 8 :=
  if code = 0 then 0 else if code = 1 then 128 else code.setWidth 8 - 1

/-- An address whose short address byte is `a`; 128 gives the address byte 0 (R31, R191). -/
def shortSource (a : BitVec 7) : BitVec 14 := if a = 0 then 128 else a.setWidth 14

/-- A slot that is occupied, does not nudge, brake or stop, and shows 0 everywhere else. -/
def plainSlot (addr : BitVec 14) (long : Bool) : Loco :=
  { addr := addr, useLong := long, use128 := false, speedStep := 0, forward := false, brake := false,
    fn := 0, estop := 0, nudge := 0 }

/-- The mask bits of function group one, `F0 F4 F3 F2 F1` (R108). -/
def maskOfGroup1 (f : BitVec 5) : BitVec 16 :=
  ((f.setWidth 16 &&& 0x0F) <<< 1) ||| (f.setWidth 16 >>> 4)

/-- Slot `enc.li` arranged for a Loco-family packet. -/
def arrangeLoco (l : Loco) (s : State) : State := setFam (setLoco s (s.loco.set s.enc.li l)) .loco

/-- Slot `enc.fi` and the group arranged for a Function-family packet. -/
def arrangeFunction (l : Loco) (fg : Fin 3) (s : State) : State :=
  setEnc (setLoco s (s.loco.set s.enc.fi l)) { s.enc with fam := .function, fg := fg }

/-- The POM record arranged at the beginning of a burst. -/
def arrangePom (p : Pom) (s : State) : State := setFam (setPom s { p with budget := 0 }) .pom

/-- The service record arranged at the beginning of a state's burst. -/
def arrangeSvc (v : Svc) (s : State) : State := setFam (setSvc s { v with budget := 0 }) .service

/-- The CV number whose wire field is `v` (R116). -/
def cvOf (v : BitVec 10) : BitVec 11 := v.setWidth 11 + 1

/-- The accessory address whose raw value is `board pair` (R114). -/
def accSource (board : BitVec 9) (pair : BitVec 2) : BitVec 11 := board ++ pair - 3

/-- The records arranged so that DISPATCH assembles `i`, or none when no records give it. -/
def arrange (i : Instr) (s : State) : Option State :=
  match i with
  | .idle => some (arrangeLoco (plainSlot 0 false) s)
  | .spd28S a d code =>
    some (arrangeLoco { plainSlot (shortSource a) false with
      forward := d, speedStep := step28Inverse code } s)
  | .spd28L a d code =>
    if a = 0 then none
    else some (arrangeLoco { plainSlot a true with forward := d, speedStep := step28Inverse code } s)
  | .spd128S a d code =>
    some (arrangeLoco { plainSlot (shortSource a) false with
      use128 := true, forward := d, speedStep := step128Inverse code } s)
  | .spd128L a d code =>
    if a = 0 then none
    else some (arrangeLoco { plainSlot a true with
      use128 := true, forward := d, speedStep := step128Inverse code } s)
  | .estop28S a d =>
    some (arrangeLoco { plainSlot (shortSource a) false with forward := d, estop := 1 } s)
  | .estop28L a d =>
    if a = 0 then none else some (arrangeLoco { plainSlot a true with forward := d, estop := 1 } s)
  | .estop128S a =>
    some (arrangeLoco { plainSlot (shortSource a) false with use128 := true, estop := 1 } s)
  | .estop128L a =>
    if a = 0 then none else some (arrangeLoco { plainSlot a true with use128 := true, estop := 1 } s)
  | .fg1S a f => some (arrangeFunction { plainSlot (shortSource a) false with fn := maskOfGroup1 f } 0 s)
  | .fg1L a f =>
    if a = 0 then none else some (arrangeFunction { plainSlot a true with fn := maskOfGroup1 f } 0 s)
  | .fg2S a f =>
    some (arrangeFunction { plainSlot (shortSource a) false with fn := f.setWidth 16 <<< 5 } 1 s)
  | .fg2L a f =>
    if a = 0 then none
    else some (arrangeFunction { plainSlot a true with fn := f.setWidth 16 <<< 5 } 1 s)
  | .fg3S a f =>
    some (arrangeFunction { plainSlot (shortSource a) false with fn := f.setWidth 16 <<< 9 } 2 s)
  | .fg3L a f =>
    if a = 0 then none
    else some (arrangeFunction { plainSlot a true with fn := f.setWidth 16 <<< 9 } 2 s)
  | .acc board pair r =>
    some (setFam (setAcc s { addr := accSource board pair, thrown := r == s.par.accThrownR }) .accessory)
  | .bstop => some (setFam s .estop)
  | .pomwbS a v data =>
    some (arrangePom { s.pom with
      kind := .short, addr := a.setWidth 14, cv := cvOf v, value := data, state := .byteWrite } s)
  | .pomwbL a v data =>
    some (arrangePom { s.pom with
      kind := .long, addr := a, cv := cvOf v, value := data, state := .byteWrite } s)
  | .pomwbA board pair v data =>
    some (arrangePom { s.pom with
      kind := .accessory, addr := (accSource board pair).setWidth 14, cv := cvOf v, value := data,
      state := .byteWrite } s)
  | .pombitS a v val pos =>
    some (arrangePom { s.pom with
      kind := .short, addr := a.setWidth 14, cv := cvOf v, bitValue := val, bitPos := pos,
      state := .bitWrite } s)
  | .pombitL a v val pos =>
    some (arrangePom { s.pom with
      kind := .long, addr := a, cv := cvOf v, bitValue := val, bitPos := pos, state := .bitWrite } s)
  | .pombitA board pair v val pos =>
    some (arrangePom { s.pom with
      kind := .accessory, addr := (accSource board pair).setWidth 14, cv := cvOf v, bitValue := val,
      bitPos := pos, state := .bitWrite } s)
  | .svcReset => some (arrangeSvc { s.svc with state := .pgStart } s)
  | .svcPgwr page => some (arrangeSvc { s.svc with state := .pgPgWrite, page := page } s)
  | .svcRegwr reg data => some (arrangeSvc { s.svc with state := .pgWrite, reg := reg, data := data } s)
  | .svcWrbyte v data => some (arrangeSvc { s.svc with state := .dWrite, cv := cvOf v, data := data } s)
  | .svcVfbyte v data =>
    some (arrangeSvc { s.svc with state := .rdVerify, cv := cvOf v, data := data, cursor := none } s)
  | .svcVfbit v pos => some (arrangeSvc { s.svc with state := .rdVerify, cv := cvOf v, cursor := pos } s)
  | .svcWrbit _ _ _ => none

/-- An encoder turn with the handoff flag true. -/
def withTurn (e : Event) (s : State) : State :=
  setAgenda (setShared s { s.shared with free := true }) (e :: s.agenda)

/-- The state in which the very next step builds the packet `i`: by the encoder's own DISPATCH where the
arranged records give it, else from outside. -/
def placeInstr (i : Instr) (s : State) : State :=
  match arrange i s with
  | none => withTurn (.load i.family (encode i)) s
  | some t =>
    if assemble t = some (i.family, encode i) then withTurn .enc t
    else withTurn (.load i.family (encode i)) s

/-- The state in which the very next step works on the payload bytes of a table word; a word that is no
packet is given from outside and is refused by that step. -/
def placeWord (nbits w : Nat) (s : State) : State :=
  match decodeTableWord nbits w with
  | some i => placeInstr i s
  | none => withTurn (.load .loco (tableBytes (nbits / 8) w)) s

end Sys2Proof.Machine
end

