-- ==== Sys2Proof/Machine/Transmitter.lean ====
section
/-! DEFINITION. The BitstreamTransmitter (spec/40_transmitter.md R140 to R152): `TX_STEP`, `TX_NEXT_BIT`,
`COPY_SHARED`, `TX_TICKS`. -/

namespace Sys2Proof.Machine

/-- The duration of each half-period of a bit, in microseconds (R140). -/
def halfPeriod (bit : Bool) : Nat := if bit then Config.t1Us else Config.t0Us

/-- A preamble position (R144) with the lock (R145): the bit is 1; at `tx.lock` the flag is cleared. -/
def preambleBit (s : State) : State × Bool :=
  let t := if s.tx.cnt = s.tx.lock then setShared s { s.shared with free := false } else s
  (setTx t { t.tx with cnt := t.tx.cnt - 1 }, true)

/-- `COPY_SHARED` (R146): all six bytes and the length, and the flag is set true. -/
def copyShared (s : State) : Host.Outcome State Fault Refusal :=
  if 6 < s.shared.len.toNat then .refused .packetTooLong
  else
    .next (setShared (setTx s { s.tx with buf := { data := s.shared.data, len := s.shared.len } })
      { s.shared with free := true })

/-- The end of a packet (R149): the stop bit; the coming preamble is sized from `shared.longPreamble`. -/
def endOfPacket (s : State) : State × Bool :=
  (setTx s { s.tx with
     cnt := if s.shared.longPreamble then Config.cntInitLong else Config.cntInitShort
     lock := if s.shared.longPreamble then s.par.lockLong else Config.cntLockShort
     bi := 0 }, true)

/-- The 0 before a byte (R147). -/
def separatorBit (s : State) : State × Bool := (setTx s { s.tx with cnt := 8 }, false)

/-- The byte-start position after the copy, where it applies (R147, R149). The end of a packet of private length 0
is a fault (93_implementation_defined U1, log entry 7). -/
def byteStart (s : State) : Host.Outcome (State × Bool) Fault Refusal :=
  if s.tx.bi = s.tx.buf.len then
    if s.tx.buf.len = 0 then .fault .emptyPacket else .next (endOfPacket s)
  else .next (separatorBit s)

/-- The countdown and the byte index after a data bit (R148). -/
def afterDataBit (t : Tx) : Tx :=
  if t.cnt = 1 then { t with cnt := Config.cntByteStart, bi := t.bi + 1 } else { t with cnt := t.cnt - 1 }

/-- A data-bit position (R148): count 8 sends bit 7, count 1 sends bit 0. -/
def dataBit (s : State) : Host.Outcome (State × Bool) Fault Refusal :=
  if s.tx.cnt = 0 then .fault .countdownRange
  else
    match packetByte s.tx.buf.data s.tx.bi.toNat with
    | none => .fault .byteIndexRange
    | some b => .next (setTx s (afterDataBit s.tx), b.getLsbD (s.tx.cnt.toNat - 1))

/-- `TX_NEXT_BIT` (R143): the next bit of the stream and the state after it. The copy is made only at the
byte start that comes from the preamble (R146). -/
def nextBit (s : State) : Host.Outcome (State × Bool) Fault Refusal :=
  if Config.cntByteStart.toNat < s.tx.cnt.toNat then .next (preambleBit s)
  else if s.tx.cnt = Config.cntByteStart then
    if s.tx.bi = 0 then
      match copyShared s with
      | .next t => byteStart t
      | .fault f => .fault f
      | .refused r => .refused r
    else byteStart s
  else dataBit s

/-- The 10 ms part of `TX_TICKS` with the enable output (R151, R152). -/
def tick10 (d : Nat) (s : State) : State :=
  if Config.tick10Us ≤ s.tx.acc10 + d then
    setShared
      (setTx s { s.tx with acc10 := s.tx.acc10 + d - Config.tick10Us, pinEN := s.power.enable })
      { s.shared with tick10 := true }
  else setTx s { s.tx with acc10 := s.tx.acc10 + d }

/-- The 1 ms part of `TX_TICKS`, present only with `ENABLE_1MS` (R151). -/
def tick1 (d : Nat) (s : State) : State :=
  if s.par.enable1ms then
    if Config.tick1Us ≤ s.tx.acc1 + d then
      setShared (setTx s { s.tx with acc1 := s.tx.acc1 + d - Config.tick1Us })
        { s.shared with tick1 := true }
    else setTx s { s.tx with acc1 := s.tx.acc1 + d }
  else s

/-- `TX_TICKS(d)` (R151). -/
def txTicks (d : Nat) (s : State) : State := tick1 d (tick10 d s)

/-- The first half-period of a new bit, before the next bit is computed (R141, R142). -/
def startBit (s : State) : State :=
  setTx s { s.tx with cur := s.tx.q, period := halfPeriod s.tx.q, pinA := true, pinB := false,
                      half := true }

/-- The second half-period of the running bit (R141, R142). -/
def secondHalf (s : State) : State :=
  setTx s { s.tx with period := halfPeriod s.tx.cur, pinA := false, pinB := true, half := false }

/-- The bit computed by `TX_NEXT_BIT` is queued (R142). -/
def queueBit (s : State) (b : Bool) : State := setTx s { s.tx with q := b }

/-- `TX_STEP` (R142). -/
def txStep (s : State) : Host.Outcome State Fault Refusal :=
  if s.tx.half then .next (txTicks (halfPeriod s.tx.cur) (secondHalf s))
  else
    match nextBit (startBit s) with
    | .next (t, b) => .next (txTicks (halfPeriod s.tx.q) (queueBit t b))
    | .fault f => .fault f
    | .refused r => .refused r

end Sys2Proof.Machine
end

