-- ==== Sys2Proof/Machine/Step.lean ====
section
/-! DEFINITION. One step of the machine: one atomic step of one agent (spec/00_scope.md R11,
spec/20_memory.md R81). -/

namespace Sys2Proof.Machine

/-- `RESET` as a turn (R380): the state of R44 with the table and limits of the event; the parameters, the
capacity and the turns still to come are not the core's and stay. -/
def resetStep (table : List LocoBoot) (limitMA limitVolts : Rat) (s : State) : State :=
  State.boot s.par s.loco.length table limitMA limitVolts s.agenda

/-- The step of the agent whose turn is at the head of the agenda. With no turn scheduled the core runs on
by itself: the encoder as soon as the flag is true, else the transmitter (log entry 1). -/
def agentStep (s : State) : Host.Outcome State Fault Refusal :=
  match s.agenda with
  | [] => if s.shared.free then encStep s else txStep s
  | .tx :: _ => txStep (popTurn s)
  | .enc :: _ => encStep s
  | .host c :: _ => hostStep c (popTurn s)
  | .reset table limitMA limitVolts :: _ => .next (resetStep table limitMA limitVolts (popTurn s))
  | .load _ _ :: _ => encStep s

/-- One step: refused by name in a configuration the spec gives no behaviour to (R160, U2 to U4), otherwise
the step of the agent whose turn it is. -/
def step (s : State) : Host.Outcome State Fault Refusal :=
  match configStop s with
  | some r => .refused r
  | none => agentStep s

/-- The state with the packet of table word `w` placed where the encoder's next claim takes it, the flag
true and the encoder's turn next (log entry 2). -/
def State.withFetchWord (s : State) (nbits w : Nat) : State := placeWord nbits w s

end Sys2Proof.Machine
end

