-- ==== Sys2Proof/Safety.lean ====
section
/-! DEFINITION. What statements about this machine speak of: what the outside may see (spec/00_scope.md R15,
spec/47_host_commands.md R322), the frame of a packet on the wire (spec/30_encoding.md R100), runs of one
agent, and the invariant `Inv` of a machine that started from a legal reset. -/

namespace Sys2Proof.Machine

/-- What the core shows without being asked, after a step (R15): the pins, the enable output, the length of
the running half-period, the callback events not yet taken, and the four telemetry fields. -/
structure Observation where
  pinA : Bool
  pinB : Bool
  pinEN : Bool
  period : Nat
  cb : List Callback
  trip : Bool
  busMA : Rat
  busVolts : Rat
  serviceMode : Bool
  deriving DecidableEq, Repr

/-- The observation of a state (R15). -/
def observe (s : State) : Observation :=
  { pinA := s.tx.pinA, pinB := s.tx.pinB, pinEN := s.tx.pinEN, period := s.tx.period, cb := s.cb,
    trip := s.power.trip, busMA := s.power.busMA, busVolts := s.power.busVolts,
    serviceMode := s.power.serviceMode }

/-- What the host may read at any time and without side effect (R322). The two budgets are not among
it, so they are shown as 0. -/
structure HostView where
  trip : Bool
  busMA : Rat
  busVolts : Rat
  serviceMode : Bool
  loco : List Loco
  acc : Acc
  pom : Pom
  svc : Svc
  fam : Family
  tick10 : Bool
  tick1 : Bool
  deriving DecidableEq, Repr

/-- The host's view of a state (R322, R299). -/
def hostView (s : State) : HostView :=
  { trip := s.power.trip, busMA := s.power.busMA, busVolts := s.power.busVolts,
    serviceMode := s.power.serviceMode, loco := s.loco, acc := s.acc,
    pom := { s.pom with budget := 0 }, svc := { s.svc with budget := 0 },
    fam := s.enc.fam, tick10 := s.shared.tick10, tick1 := s.shared.tick1 }

/-- The eight bits of a byte, most significant first (R77). -/
def byteBits (b : Byte) : List Bool :=
  [b.getLsbD 7, b.getLsbD 6, b.getLsbD 5, b.getLsbD 4, b.getLsbD 3, b.getLsbD 2, b.getLsbD 1, b.getLsbD 0]

/-- Every byte behind its separator (R147, R148). -/
def framedBytes : List Byte → List Bool
  | [] => []
  | b :: bs => false :: (byteBits b ++ framedBytes bs)

/-- The number of ones of a preamble (R6, R149). -/
def preambleLength (long : Bool) : Nat := if long then 24 else 14

/-- The bits from one copy to the next: the packet, its stop bit, the preamble that follows (R150). -/
def frameBits (packet : List Byte) (long : Bool) : List Bool :=
  framedBytes packet ++ [true] ++ List.replicate (preambleLength long) true

/-- `n` calls of `TX_NEXT_BIT` in a row, with the bits they return in order (R143). -/
def txBits : Nat → State → Host.Outcome (State × List Bool) Fault Refusal
  | 0, s => .next (s, [])
  | n + 1, s =>
    match nextBit s with
    | .next (t, b) =>
      match txBits n t with
      | .next (u, bs) => .next (u, b :: bs)
      | .fault f => .fault f
      | .refused r => .refused r
    | .fault f => .fault f
    | .refused r => .refused r

/-- The bytes of the packet in the shared buffer, checksum included (R21). -/
def sharedPacket (s : State) : List Byte := (packetList s.shared.data).take s.shared.len.toNat

/-- The bytes of the packet in the transmitter's buffer, checksum included (R23). -/
def txPacket (s : State) : List Byte := (packetList s.tx.buf.data).take s.tx.buf.len.toNat

/-- A payload with its checksum (R103). -/
def withChecksum (bs : List Byte) : List Byte := bs ++ [xorBytes bs]

/-- `PUBLISH` of the payload `bs` with the preamble attribute `lp`, seen as a relation of the states before
and after a claim (R172): payload and checksum in place, the bytes above them, and the tick flags, as they
were; the handoff flag cleared by the claim (R171). -/
structure Published (bs : List Byte) (lp : Bool) (s t : State) : Prop where
  packet : sharedPacket t = withChecksum bs
  len : t.shared.len.toNat = bs.length + 1
  preamble : t.shared.longPreamble = lp
  above : ∀ k, bs.length < k → packetByte t.shared.data k = packetByte s.shared.data k
  free : t.shared.free = false
  ticks : t.shared.tick10 = s.shared.tick10 ∧ t.shared.tick1 = s.shared.tick1

/-- The handoff flag as `COPY_SHARED` leaves it (R146). -/
def withFree (s : State) : State := setShared s { s.shared with free := true }

/-- `n` encoder turns, each after a copy, with the packet the shared buffer holds after each
(an encoder that claims after every copy, R174, R259). -/
def claims : Nat → State → Host.Outcome (State × List (List Byte)) Fault Refusal
  | 0, s => .next (s, [])
  | n + 1, s =>
    match encStep (withFree s) with
    | .next t =>
      match claims n t with
      | .next (u, ps) => .next (u, sharedPacket t :: ps)
      | .fault f => .fault f
      | .refused r => .refused r
    | .fault f => .fault f
    | .refused r => .refused r

/-- The step about to be taken is a claim (41_encoder_core R170, R171): the flag is true and it is the encoder's
turn, or no turn is scheduled (log entry 1), or a packet is given from outside (log entry 2). -/
def claimDue (s : State) : Prop :=
  s.shared.free = true ∧
    (s.agenda = [] ∨ (∃ es, s.agenda = .enc :: es) ∨ ∃ f bs es, s.agenda = .load f bs :: es)

/-- No packet given from outside waits in the agenda (log entry 2): the hardware's own turns only. -/
def noLoad : List Event → Bool
  | [] => true
  | .tx :: es => noLoad es
  | .enc :: es => noLoad es
  | .host _ :: es => noLoad es
  | .reset _ _ _ :: es => noLoad es
  | .load _ _ :: _ => false

/-- The packet types the encoder ever builds: every well-formed one but `SVC.WRBIT` (R257). -/
def built (i : Instr) : Bool :=
  i.wf &&
    match i with
    | .svcWrbit _ _ _ => false
    | .idle | .spd28S _ _ _ | .spd28L _ _ _ | .spd128S _ _ _ | .spd128L _ _ _ | .estop28S _ _
    | .estop28L _ _ | .estop128S _ | .estop128L _ | .fg1S _ _ | .fg1L _ _ | .fg2S _ _ | .fg2L _ _
    | .fg3S _ _ | .fg3L _ _ | .acc _ _ _ | .bstop | .pomwbS _ _ _ | .pomwbL _ _ _ | .pomwbA _ _ _ _
    | .pombitS _ _ _ _ | .pombitL _ _ _ _ | .pombitA _ _ _ _ _ | .svcReset | .svcPgwr _
    | .svcRegwr _ _ | .svcWrbyte _ _ | .svcVfbyte _ _ | .svcVfbit _ _ => true

/-- A locomotive slot is empty, or its address is in the range of its form (20_memory R71, R72). -/
def slotLegal (l : Loco) : Bool :=
  l.addr == 0 || if l.useLong then longLegal l.addr else decide (l.addr.toNat ≤ 127)

/-- The address of a POM request is in the range of its kind (20_memory R71 to R73). -/
def pomLegal (p : Pom) : Bool :=
  match p.kind with
  | .short => p.addr != 0 && decide (p.addr.toNat ≤ 127)
  | .long => longLegal p.addr
  | .accessory => p.addr != 0 && decide (p.addr.toNat ≤ 2047)

/-- Every address that DISPATCH may read is legal (20_memory R71 to R73), as a careful host keeps them
(70_reset_and_hazards R396): those of the slots, of the accessory command under its tag, and of a POM request that
runs. -/
structure AddressesLegal (s : State) : Prop where
  slots : ∀ l ∈ s.loco, slotLegal l = true
  accessory : s.enc.fam = .accessory → s.acc.addr ≠ 0
  pom : s.pom.state ≠ .idle → pomLegal s.pom = true

/-- The first byte is 0xE8 to 0xFE, which no format of the encoder begins with (30_encoding R120 a). -/
def reservedFirst : List Byte → Bool
  | [] => false
  | b :: _ => decide (0xE8 ≤ b.toNat ∧ b.toNat ≤ 0xFE)

/-- Neither buffer holds a packet that begins with a reserved byte (30_encoding R120 a). -/
def ReservedFree (s : State) : Prop :=
  reservedFirst (sharedPacket s) = false ∧ reservedFirst (txPacket s) = false

/-- The states of the read sequence (R35). -/
def isRead : SvcState → Bool
  | .rdStart | .rdVerify | .rdReset | .rdFinal => true
  | .idle | .pgStart | .pgPgWrite | .pgReset | .pgWrite | .pgReset2 | .dStart | .dWrite | .dReset => false

/-- Both buffers hold a packet of the opcode table that the encoder builds, and the preamble request is
that packet's attribute (R85, R103, R118, R120). The broadcast stop `00 61` counts as the table's `ESTOP28.S` of short
address 0 (log entry 11). -/
structure BufferInv (s : State) : Prop where
  shared : ∃ i : Instr, built i = true ∧ sharedPacket s = withChecksum (encode i) ∧
    s.shared.len.toNat = (encode i).length + 1 ∧ s.shared.longPreamble = i.longPreamble
  tx : ∃ i : Instr, built i = true ∧ txPacket s = withChecksum (encode i) ∧
    s.tx.buf.len.toNat = (encode i).length + 1

/-- The transmitter's counters, accumulators and pins are in their ranges (R24, R26, R27, R150). -/
structure TxInv (s : State) : Prop where
  lock : s.tx.lock = Config.cntLockShort ∨ s.tx.lock = s.par.lockLong
  count : 1 ≤ s.tx.cnt.toNat ∧ s.tx.cnt.toNat ≤ 33
  index : s.tx.bi.toNat ≤ s.tx.buf.len.toNat
  dataIndex : s.tx.cnt.toNat ≤ 8 → s.tx.bi.toNat < s.tx.buf.len.toNat
  preamble : 9 < s.tx.cnt.toNat → s.tx.bi = 0
  ticks : s.tx.acc10 < Config.tick10Us ∧ s.tx.acc1 < Config.tick1Us
  pins : s.tx.pinA = s.tx.half ∧
    ((s.tx.pinB = !s.tx.pinA ∧ s.tx.period = halfPeriod s.tx.cur) ∨
      (s.tx.pinA = false ∧ s.tx.pinB = false))

/-- The round-robin indices stay below the capacity (R29, U15). -/
structure IndexInv (s : State) : Prop where
  loco : s.enc.li < s.loco.length
  function : s.enc.fi < s.loco.length

/-- A trip means no power is requested (R319); currents and voltages are not negative (R36). -/
structure PowerInv (s : State) : Prop where
  trip : s.power.trip = true → s.power.enable = false
  current : 0 ≤ s.power.busMA
  volts : 0 ≤ s.power.busVolts
  quiescent : 0 ≤ s.power.quiescentMA
  ackBase : 0 ≤ s.power.ackBaseMA

/-- The two sequencers: budgets within their counts (R33, R34, R174), data known while a sequence runs
(R263), a sequence runs in service mode only (R318), and during a burst the shared buffer holds the burst's
own packet (R174). -/
structure SequenceInv (s : State) : Prop where
  pomBudget : s.pom.budget.toNat < Config.pomRepeat.toNat
  pomIdle : s.pom.state = .idle → s.pom.budget = 0
  pomBurst : s.enc.fam = .pom → s.pom.budget ≠ 0 →
    ∃ i : Instr, i.family = .pom ∧ sharedPacket s = withChecksum (encode i)
  svcBudget : s.svc.budget.toNat < (svcRepeat s.par s.svc.state).toNat
  svcData : s.svc.state ≠ .idle → s.svc.data.isSome = true
  svcMode : s.svc.state ≠ .idle → s.power.serviceMode = true
  svcBurst : s.enc.fam = .service → s.svc.budget ≠ 0 →
    sharedPacket s = withChecksum (servicePayload s.svc) ∧ s.shared.longPreamble = true
  undecided : isRead s.svc.state = true → ∀ k b, s.svc.cursor = some k → s.svc.data = some b →
    ∀ j, j ≤ k.toNat → b.getLsbD j = false

/-- The invariant of a machine that started from a legal reset: a configuration the spec gives behaviour
to, the hardware's own turns, and the five parts above. -/
structure Inv (s : State) : Prop where
  config : configStop s = none
  turns : noLoad s.agenda = true
  buffers : BufferInv s
  transmitter : TxInv s
  indices : IndexInv s
  power : PowerInv s
  sequences : SequenceInv s

end Sys2Proof.Machine
end

