-- ==== Sys2Proof/Certificates/Slice0/Obligations.lean ====
section
/-! DEFINITION. The statements for the provers. `exec` of a packet is one claim of the encoder; "the turn is used
up" is `agenda.tail` (log entry 1). A statement that writes the next state as `{ s with … }` says its frame:
every record not named is as before. -/

open Sys2Proof Sys2Proof.Machine

/-! ## Reading and writing packets -/

/-- Words written out from the bit patterns of 30_encoding R102, with the examples of R200, R201, R203,
R206, R220, R221, R233, R252, R254, R256. -/
def Obligations.DecodeSampleWords : Prop :=
  decode .loco [0x03, 0x69] = .ok (.spd28S 3 true 0x09) ∧
  decode .loco [0xC4, 0xD2, 0x3F, 0xE5] = .ok (.spd128L 1234 true 0x65) ∧
  decode .loco [0xC4, 0xD2, 0x3F, 0x01] = .ok (.estop128L 1234) ∧
  decode .loco [0xFF, 0x00] = .ok .idle ∧
  decode .function [0x03, 0x99] = .ok (.fg1S 3 0x19) ∧
  decode .accessory [0x82, 0xF8] = .ok (.acc 2 0 false) ∧
  decode .estop [0x00, 0x41] = .ok .bstop ∧
  decode .pom [0x82, 0xF8, 0xEE, 0x00, 0x01] = .ok (.pomwbA 2 0 0x200 0x01) ∧
  decode .service [0x7D, 0x08] = .ok (.svcPgwr 8) ∧
  decode .service [0x7D, 0x00, 0x80] = .ok (.svcWrbyte 0x100 0x80) ∧
  decode .service [0x78, 0x1C, 0xEF] = .ok (.svcVfbit 0x01C 7)

/-- Every well-formed packet is read back from its bytes, with every operand, in the family that builds it; the
idle packet also in the Function family (30_encoding R102, R199). -/
def Obligations.DecodeEncode : Prop :=
  (∀ i : Instr, i.wf = true → decode i.family (encode i) = .ok i) ∧
    decode .function (encode .idle) = .ok .idle

/-- A byte sequence read as a packet of a family is that packet's own bytes: reserved and never-emitted
encodings are no packet, and no packet has two spellings (30_encoding R101, R102, R120). -/
def Obligations.EncodeDecode : Prop :=
  ∀ (f : Family) (bs : List Byte) (i : Instr), decode f bs = .ok i →
    encode i = bs ∧ i.wf = true ∧ (i.family = f ∨ (i = .idle ∧ f = .function))

/-- Whatever the records hold, DISPATCH assembles the bytes of one packet of the opcode table, read back
as that packet, and never `SVC.WRBIT` (30_encoding R102, R120; 41_encoder_core R175; 45_service_mode R257). -/
def Obligations.DispatchBuildsTablePackets : Prop :=
  ∀ (s : State) (f : Family) (bs : List Byte), assemble s = some (f, bs) →
    ∃ i : Instr, decode f bs = .ok i ∧ encode i = bs ∧ built i = true ∧
      i.longPreamble = decide (f = .service)

/-- A table word placed by `withFetchWord` is the packet the very next step works on, in every state with a
legal configuration (the model's own interface, log entry 2). -/
def Obligations.PlacedWordRuns : Prop :=
  ∀ (s : State) (nbits w : Nat) (i : Instr), configStop s = none → decodeTableWord nbits w = some i →
    step (s.withFetchWord nbits w) = exec i (s.withFetchWord nbits w)

/-! ## One step -/

/-- A claim runs the packet that the fetched bytes are (41_encoder_core R170, R173): with the flag true and the
encoder's turn next (or no turn scheduled, log entry 1), the step is `exec` of the decoded packet. -/
def Obligations.StepRunsDecoded : Prop :=
  ∀ (s : State) (f : Family) (bs : List Byte) (i : Instr), configStop s = none → s.shared.free = true →
    (s.agenda = [] ∨ (∃ es, s.agenda = .enc :: es) ∨ (∃ es, s.agenda = .load f bs :: es)) →
    fetch s = some (f, bs) → decode f bs = .ok i → i.wf = true → step s = exec i s

/-- Whose step it is (20_memory R81; the agenda is the model's own, log entry 1), and the encoder's no-op: with
the flag false an encoder turn changes nothing but the agenda (41_encoder_core R170). -/
def Obligations.StepTakesTheTurn : Prop :=
  ∀ (s : State) (es : List Event), configStop s = none →
    (s.agenda = .tx :: es → step s = txStep { s with agenda := es }) ∧
    (∀ c, s.agenda = .host c :: es → step s = hostStep c { s with agenda := es }) ∧
    (∀ table iLim vLim, s.agenda = .reset table iLim vLim :: es →
      step s = .next (State.boot s.par s.loco.length table iLim vLim es)) ∧
    (s.agenda = .enc :: es → s.shared.free = false → step s = .next { s with agenda := es }) ∧
    (s.agenda = [] → s.shared.free = false → step s = txStep s)

/-- Configurations without behaviour are refused by name at every step (40_transmitter R160, R145;
93_implementation_defined U2 to U4; 00_scope R7); the order of the checks is the model's own (log entry 15). -/
def Obligations.ConfigurationRefused : Prop :=
  ∀ s : State,
    (s.par.variant = .dcPwm → step s = .refused .dcPwmVariant) ∧
    (s.par.variant = .dcc → s.loco = [] → step s = .refused .noLocoSlots) ∧
    (s.par.variant = .dcc → s.loco ≠ [] → (s.par.lockLong.toNat < 10 ∨ 33 < s.par.lockLong.toNat) →
      step s = .refused .lockLongRange) ∧
    (s.par.variant = .dcc → s.loco ≠ [] → 10 ≤ s.par.lockLong.toNat → s.par.lockLong.toNat ≤ 33 →
      (s.par.nDStart = 0 ∨ s.par.nDWrite = 0 ∨ s.par.nDReset = 0 ∨ s.par.nRdStart = 0 ∨
        s.par.nRdVerify = 0 ∨ s.par.nRdReset = 0 ∨ s.par.nRdFinal = 0 ∨ s.par.estopTimerInit = 0 ∨
        s.par.pomTimeoutQs = 0 ∨ s.par.svcTimeoutQs = 0 ∨ s.par.safeMA < 0) →
      step s = .refused .parameterRange)

/-! ## The packets: what a claim that builds one does -/

/-- `SPD28`, `SPD128`, `ESTOP28`, `ESTOP128`, `.S` and `.L` (42_loco_function R196, R195, R209): the packet is
published with the short preamble; a nudging slot counts down and keeps the index, any other slot passes the index
on, wrapping; the tag goes to FUNCTION. -/
def Obligations.LocoPacketCompletes : Prop :=
  ∀ (i : Instr) (s : State) (l : Loco), i.family = .loco → i ≠ .idle → s.loco[s.enc.li]? = some l →
    ∃ t, exec i s = .next t ∧ Published (encode i) false s t ∧
      t = { s with
        shared := t.shared
        agenda := s.agenda.tail
        loco := if l.nudge = 0 then s.loco else s.loco.set s.enc.li { l with nudge := l.nudge - 1 }
        enc := { s.enc with
          li := if l.nudge = 0 then (s.enc.li + 1) % s.loco.length else s.enc.li
          fam := .function } }

/-- `IDLE` (42_loco_function R199, R196, R205): under the tag FUNCTION it advances the Function family, under any
other the Loco family; an empty slot never holds the index and none of its fields changes. That it does so also under
the tags ACCESSORY and ESTOP and under a running POM or SERVICE, where DISPATCH never builds it, is the model's choice
(log entry 13). -/
def Obligations.IdlePacketCompletes : Prop :=
  ∀ s : State,
    (s.enc.fam = .function → s.enc.fi < s.loco.length →
      ∃ t, exec .idle s = .next t ∧ Published [0xFF, 0x00] false s t ∧
        t = { s with
          shared := t.shared
          agenda := s.agenda.tail
          enc := { s.enc with
            fg := s.enc.fg + 1
            fi := if s.enc.fg = 2 then (s.enc.fi + 1) % s.loco.length else s.enc.fi
            fam := .loco } }) ∧
    (s.enc.fam ≠ .function → s.enc.li < s.loco.length →
      ∃ t, exec .idle s = .next t ∧ Published [0xFF, 0x00] false s t ∧
        t = { s with
          shared := t.shared
          agenda := s.agenda.tail
          enc := { s.enc with li := (s.enc.li + 1) % s.loco.length, fam := .function } })

/-- `FG1`, `FG2`, `FG3`, `.S` and `.L` (42_loco_function R205 to R208, R210): the packet is published with the
short preamble, the group advances modulo 3, at its wrap the slot index, and the tag goes back to LOCO; no slot
changes. -/
def Obligations.FunctionPacketCompletes : Prop :=
  ∀ (i : Instr) (s : State), i.family = .function → s.enc.fi < s.loco.length →
    ∃ t, exec i s = .next t ∧ Published (encode i) false s t ∧
      t = { s with
        shared := t.shared
        agenda := s.agenda.tail
        enc := { s.enc with
          fg := s.enc.fg + 1
          fi := if s.enc.fg = 2 then (s.enc.fi + 1) % s.loco.length else s.enc.fi
          fam := .loco } }

/-- `ACC` (43_accessory_estop R220): published once with the short preamble, the staging record kept, the tag
to LOCO. -/
def Obligations.AccessoryPacketCompletes : Prop :=
  ∀ (board : BitVec 9) (pair : BitVec 2) (r : Bool) (s : State),
    ∃ t, exec (.acc board pair r) s = .next t ∧ Published (encode (.acc board pair r)) false s t ∧
      t = { s with shared := t.shared, agenda := s.agenda.tail, enc := { s.enc with fam := .loco } }

/-- `BSTOP` (43_accessory_estop R221): the broadcast is published, with 0x41 or 0x61 by the parameter
`ESTOP_BCAST_INSTR` (00_scope R7, 93_implementation_defined U22; the two values of D20, log entry 11); every slot's stop timer, of empty slots too,
becomes `ESTOP_TIMER_INIT`; a current trip is cleared, power requested again and the smoothed current replaced
by `SAFE_MA`; without a trip the power record is as before; the tag goes to LOCO. -/
def Obligations.BroadcastStopCompletes : Prop :=
  ∀ s : State,
    ∃ t, exec .bstop s = .next t ∧
      Published [0x00, if s.par.estopBcastD then 0x61 else 0x41] false s t ∧
      t = { s with
        shared := t.shared
        agenda := s.agenda.tail
        loco := s.loco.map fun l => { l with estop := s.par.estopTimerInit }
        power := if s.power.trip then
            { s.power with trip := false, busMA := s.par.safeMA, enable := true }
          else s.power
        enc := { s.enc with fam := .loco } }

/-- `POMWB`, `POMBIT`, `.S`, `.L` and `.A` (44_pom R233 to R235, 41_encoder_core R174): the first claim of a burst
publishes the packet and owes three more, a later one leaves it in place; the claim that takes the budget to 0
ends the request; the tag stays. What such a packet does while the request is idle, where DISPATCH never builds it, is
the model's choice (log entry 13). -/
def Obligations.PomPacketCompletes : Prop :=
  ∀ (i : Instr) (s : State), i.family = .pom →
    ∃ t, exec i s = .next t ∧
      (s.pom.budget = 0 → Published (encode i) false s t ∧
        t = { s with
          shared := t.shared
          agenda := s.agenda.tail
          pom := { s.pom with budget := 3 } }) ∧
      (s.pom.budget ≠ 0 →
        t = { s with
          shared := { s.shared with free := false }
          agenda := s.agenda.tail
          pom := { s.pom with
            budget := s.pom.budget - 1
            state := if s.pom.budget = 1 then .idle else s.pom.state } })

/-- `SVC.RESET`, `SVC.PGWR`, `SVC.REGWR`, `SVC.WRBYTE`, `SVC.VFBYTE`, `SVC.VFBIT` in a claim that does not complete
the state's burst (45_service_mode R250, R258, R259, 41_encoder_core R174): the first claim publishes the packet with
the long preamble, a later one leaves it in place; only the budget moves. `n` is the state's repeat count by the table
of R258; the 1 of IDLE, which builds nothing, is the model's choice (log entry 13). -/
def Obligations.ServiceBurstRuns : Prop :=
  ∀ (i : Instr) (s : State) (n : BitVec 4), i.family = .service → built i = true →
    n = (match s.svc.state with
      | .idle => 1
      | .pgStart => 3 | .pgPgWrite => 5 | .pgReset => 6 | .pgWrite => 5 | .pgReset2 => 10
      | .dStart => s.par.nDStart | .dWrite => s.par.nDWrite | .dReset => s.par.nDReset
      | .rdStart => s.par.nRdStart | .rdVerify => s.par.nRdVerify | .rdReset => s.par.nRdReset
      | .rdFinal => s.par.nRdFinal) →
    ((s.svc.budget = 0 → n ≠ 1 →
      ∃ t, exec i s = .next t ∧ Published (encode i) true s t ∧
        t = { s with
          shared := t.shared
          agenda := s.agenda.tail
          svc := { s.svc with budget := n - 1 } }) ∧
    (s.svc.budget ≠ 0 → s.svc.budget ≠ 1 →
      exec i s = .next { s with
        shared := { s.shared with free := false }
        agenda := s.agenda.tail
        svc := { s.svc with budget := s.svc.budget - 1 } }))

/-- The same packets in the claim that completes the burst of a state without an exit action (45_service_mode
R258, R260): the sequencer moves to the successor of the state table. The pair IDLE, IDLE is no row of that table: it
says what the model does with a service packet given from outside (log entry 13). -/
def Obligations.ServiceStateAdvances : Prop :=
  ∀ (i : Instr) (s : State) (st' : SvcState), i.family = .service → built i = true →
    (s.svc.budget = 1 ∨ (s.svc.budget = 0 ∧ svcRepeat s.par s.svc.state = 1)) →
    (s.svc.state, st') ∈ [(SvcState.idle, SvcState.idle), (.pgStart, .pgPgWrite), (.pgPgWrite, .pgReset),
      (.pgReset, .pgWrite), (.pgWrite, .pgReset2), (.pgReset2, .idle), (.dStart, .dWrite),
      (.dWrite, .dReset), (.dReset, .idle), (.rdStart, .rdVerify), (.rdReset, .rdFinal)] →
    ∃ t, exec i s = .next t ∧ t.shared.free = false ∧
      (s.svc.budget = 0 → Published (encode i) true s t) ∧
      (s.svc.budget = 1 → t.shared = { s.shared with free := false }) ∧
      t = { s with
        shared := t.shared
        agenda := s.agenda.tail
        svc := { s.svc with budget := 0, state := st' } }

/-- The claim that completes `RD_VERIFY` arms the acknowledgement detector (45_service_mode R265,
46_power_monitor R296): the baseline is the smoothed current, the flag is cleared, the sensor is in trigger mode. -/
def Obligations.VerifyBurstArmsDetector : Prop :=
  ∀ (i : Instr) (s : State), i.family = .service → built i = true → s.svc.state = .rdVerify →
    (s.svc.budget = 1 ∨ (s.svc.budget = 0 ∧ s.par.nRdVerify = 1)) →
    ∃ t, exec i s = .next t ∧
      (s.svc.budget = 0 → Published (encode i) true s t) ∧
      (s.svc.budget = 1 → t.shared = { s.shared with free := false }) ∧
      t = { s with
        shared := t.shared
        agenda := s.agenda.tail
        svc := { s.svc with budget := 0, state := .rdReset }
        power := { s.power with
          ackBaseMA := s.power.busMA
          ackFlag := false
          sensorMode := .trigger } }

/-- The claim that completes `RD_FINAL` in a bit pass (45_service_mode R266, R263): an acknowledgement sets bit
`k` of the accumulating byte and no other, none leaves the byte; the cursor moves down, 0 to -1; the detector is
armed again and the next pass begins. -/
def Obligations.BitPassEvaluation : Prop :=
  ∀ (i : Instr) (s : State) (k : BitVec 3) (b : Byte), i.family = .service → built i = true →
    s.svc.state = .rdFinal → s.svc.cursor = some k → s.svc.data = some b →
    (s.svc.budget = 1 ∨ (s.svc.budget = 0 ∧ s.par.nRdFinal = 1)) →
    ∃ t b', exec i s = .next t ∧
      (∀ j, b'.getLsbD j = (b.getLsbD j || (s.power.ackFlag && decide (j = k.toNat)))) ∧
      (s.svc.budget = 0 → Published (encode i) true s t) ∧
      (s.svc.budget = 1 → t.shared = { s.shared with free := false }) ∧
      t = { s with
        shared := t.shared
        agenda := s.agenda.tail
        svc := { s.svc with
          budget := 0
          data := some b'
          cursor := if k = 0 then none else some (k - 1)
          state := .rdStart }
        power := { s.power with
          ackBaseMA := s.power.busMA
          ackFlag := false
          sensorMode := .trigger } }

/-- The claim that completes `RD_FINAL` in the byte-verify pass (45_service_mode R266 to R268, 60_exceptions
R341): without an acknowledgement the value becomes unknown; the sensor returns to averaging, one event with the
CV number and the value goes to the callback port, and the sequencer is idle. -/
def Obligations.BytePassEvaluation : Prop :=
  ∀ (i : Instr) (s : State), i.family = .service → built i = true →
    s.svc.state = .rdFinal → s.svc.cursor = none →
    (s.svc.budget = 1 ∨ (s.svc.budget = 0 ∧ s.par.nRdFinal = 1)) →
    ∃ t v, exec i s = .next t ∧ v = (if s.power.ackFlag then s.svc.data else none) ∧
      (s.svc.budget = 0 → Published (encode i) true s t) ∧
      (s.svc.budget = 1 → t.shared = { s.shared with free := false }) ∧
      t = { s with
        shared := t.shared
        agenda := s.agenda.tail
        svc := { s.svc with budget := 0, data := v, state := .idle }
        power := { s.power with sensorMode := .averaging }
        cb := s.cb ++ [⟨s.svc.cv, v⟩] }

/-- `SVC.WRBIT` (45_service_mode R257): its packet is published with the long preamble and nothing else changes; as
no sequence builds it, that no sequencer field belongs to it is the model's choice (log entry 13). -/
def Obligations.WriteBitPacketCompletes : Prop :=
  ∀ (v : BitVec 10) (val : Bool) (pos : BitVec 3) (s : State),
    ∃ t, exec (.svcWrbit v val pos) s = .next t ∧ Published (encode (.svcWrbit v val pos)) true s t ∧
      t = { s with shared := t.shared, agenda := s.agenda.tail }

/-- Where a step stops with a fault, or a copy is refused (the model's own stops, log entries 6 and 7;
93_implementation_defined U1, U15, 40_transmitter R146): no reachable state comes here (`InvariantNeverStops`). -/
def Obligations.OutOfRangeStops : Prop :=
  (∀ (i : Instr) (s : State), i.family = .loco → i ≠ .idle → s.loco.length ≤ s.enc.li →
    exec i s = .fault .slotIndexRange) ∧
  (∀ (i : Instr) (s : State), i.family = .function → s.loco.length ≤ s.enc.fi →
    exec i s = .fault .slotIndexRange) ∧
  (∀ s : State, s.tx.half = false → s.tx.cnt = 9 → s.tx.bi = 0 → s.shared.len = 7 →
    txStep s = .refused .packetTooLong) ∧
  (∀ s : State, s.tx.half = false → s.tx.cnt = 9 → s.tx.bi = 0 → s.shared.len = 0 →
    txStep s = .fault .emptyPacket) ∧
  (∀ s : State, s.tx.half = false → s.tx.cnt = 0 → txStep s = .fault .countdownRange) ∧
  (∀ s : State, s.tx.half = false → 1 ≤ s.tx.cnt.toNat → s.tx.cnt.toNat ≤ 8 → 6 ≤ s.tx.bi.toNat →
    txStep s = .fault .byteIndexRange)

/-! ## DISPATCH: which bytes the records give -/

/-- Which family a claim builds (41_encoder_core R173, R176): the tag's, and the Loco family under the tags POM
and SERVICE while their state tag is idle. -/
def Obligations.DispatchChoosesFamily : Prop :=
  ∀ (s : State) (f : Family) (bs : List Byte), assemble s = some (f, bs) →
    (s.enc.fam = .pom → f = if s.pom.state = .idle then .loco else .pom) ∧
    (s.enc.fam = .service → f = if s.svc.state = .idle then .loco else .service) ∧
    (s.enc.fam ≠ .pom → s.enc.fam ≠ .service → f = s.enc.fam)

/-- The Loco family's packet (42_loco_function R190 to R203, R209): `IDLE` for an empty slot; otherwise the address
in its short or long form, and the speed code and direction, the nudge's maximum and alternating direction, or the
emergency stop that overrides both. -/
def Obligations.LocoDispatch : Prop :=
  ∀ (s : State) (l : Loco) (sp : BitVec 8) (d : Bool),
    (s.enc.fam = .loco ∨ (s.enc.fam = .pom ∧ s.pom.state = .idle) ∨
      (s.enc.fam = .service ∧ s.svc.state = .idle)) →
    s.loco[s.enc.li]? = some l →
    sp = (if l.brake then BitVec.ofNat 8 (l.speedStep.toNat / 2) else l.speedStep) →
    d = (if l.nudge = 0 then l.forward else decide (l.nudge.toNat % 2 = 1)) →
    assemble s = some (.loco, encode
         (if l.addr = 0 then .idle
          else if l.useLong then
            (if l.use128 then
              (if l.estop ≠ 0 then .estop128L l.addr
               else .spd128L l.addr d (if l.nudge = 0 then step128 sp else 127))
             else
              (if l.estop ≠ 0 then .estop28L l.addr d
               else .spd28L l.addr d (if l.nudge = 0 then step28 sp else 31)))
          else
            (if l.use128 then
              (if l.estop ≠ 0 then .estop128S (l.addr.setWidth 7)
               else .spd128S (l.addr.setWidth 7) d (if l.nudge = 0 then step128 sp else 127))
             else
              (if l.estop ≠ 0 then .estop28S (l.addr.setWidth 7) d
               else .spd28S (l.addr.setWidth 7) d (if l.nudge = 0 then step28 sp else 31)))))

/-- The Function family's packet (42_loco_function R206 to R208, R210; 30_encoding R108): `IDLE` for an empty slot;
otherwise the group's function bits, F0 above F4 to F1, F8 to F5, F12 to F9. -/
def Obligations.FunctionDispatch : Prop :=
  ∀ (s : State) (l : Loco), s.enc.fam = .function → s.loco[s.enc.fi]? = some l →
    assemble s = some (.function, encode
         (if l.addr = 0 then .idle
          else if s.enc.fg = 0 then
            (if l.useLong then .fg1L l.addr (l.fn.extractLsb' 0 1 ++ l.fn.extractLsb' 1 4)
             else .fg1S (l.addr.setWidth 7) (l.fn.extractLsb' 0 1 ++ l.fn.extractLsb' 1 4))
          else if s.enc.fg = 1 then
            (if l.useLong then .fg2L l.addr (l.fn.extractLsb' 5 4)
             else .fg2S (l.addr.setWidth 7) (l.fn.extractLsb' 5 4))
          else
            (if l.useLong then .fg3L l.addr (l.fn.extractLsb' 9 4)
             else .fg3S (l.addr.setWidth 7) (l.fn.extractLsb' 9 4))))

/-- The accessory packet and the broadcast stop (30_encoding R114, 43_accessory_estop R220, R221): the raw address
is `(addr + 3) mod 2048`, its quotient and remainder by 4 are board and pair, and the output select is
`ACC_THROWN_R` for thrown, its opposite for closed; the broadcast is assembled as the table's row `BSTOP`, and what is
published has the byte `ESTOP_BCAST_INSTR` (`BroadcastStopCompletes`, log entry 11). -/
def Obligations.OneShotDispatch : Prop :=
  ∀ s : State,
    (s.enc.fam = .accessory → ∃ (board : BitVec 9) (pair : BitVec 2),
      board.toNat = (s.acc.addr.toNat + 3) % 2048 / 4 ∧ pair.toNat = (s.acc.addr.toNat + 3) % 4 ∧
      assemble s = some (.accessory, encode (.acc board pair
        (if s.acc.thrown then s.par.accThrownR else !s.par.accThrownR)))) ∧
    (s.enc.fam = .estop → assemble s = some (.estop, encode .bstop))

/-- The POM packet (44_pom R231 to R234, 30_encoding R115, R116): the target's address bytes, `(cv - 1) mod 1024`
in ten bits, then the value or the bit. -/
def Obligations.PomDispatch : Prop :=
  ∀ (s : State) (v : BitVec 10) (board : BitVec 9) (pair : BitVec 2), s.enc.fam = .pom →
    s.pom.state ≠ .idle →
    v.toNat = (s.pom.cv.toNat + 1023) % 1024 →
    board.toNat = (s.pom.addr.toNat + 3) % 2048 / 4 → pair.toNat = (s.pom.addr.toNat + 3) % 4 →
    assemble s = some (.pom, encode
      (if s.pom.state = .byteWrite then
        match s.pom.kind with
        | .short => .pomwbS (s.pom.addr.setWidth 7) v s.pom.value
        | .long => .pomwbL s.pom.addr v s.pom.value
        | .accessory => .pomwbA board pair v s.pom.value
       else
        match s.pom.kind with
        | .short => .pombitS (s.pom.addr.setWidth 7) v s.pom.bitValue s.pom.bitPos
        | .long => .pombitL s.pom.addr v s.pom.bitValue s.pom.bitPos
        | .accessory => .pombitA board pair v s.pom.bitValue s.pom.bitPos))

/-- The packet of each service state (45_service_mode R258, R251 to R256): reset packets, the page write, the register
write, the direct write, and in `RD_VERIFY` the verify of bit `cursor`, or of the byte in the pass with cursor -1. -/
def Obligations.ServiceDispatch : Prop :=
  ∀ (s : State) (v : BitVec 10) (b : Byte), s.enc.fam = .service → s.svc.data = some b →
    v.toNat = (s.svc.cv.toNat + 1023) % 1024 →
    (s.svc.state ∈ [SvcState.pgStart, .pgReset, .pgReset2, .dStart, .dReset, .rdStart, .rdReset, .rdFinal] →
      assemble s = some (.service, encode .svcReset)) ∧
    (s.svc.state = .pgPgWrite → assemble s = some (.service, encode (.svcPgwr s.svc.page))) ∧
    (s.svc.state = .pgWrite → assemble s = some (.service, encode (.svcRegwr s.svc.reg b))) ∧
    (s.svc.state = .dWrite → assemble s = some (.service, encode (.svcWrbyte v b))) ∧
    (s.svc.state = .rdVerify → ∀ k, s.svc.cursor = some k →
      assemble s = some (.service, encode (.svcVfbit v k))) ∧
    (s.svc.state = .rdVerify → s.svc.cursor = none →
      assemble s = some (.service, encode (.svcVfbyte v b)))

/-! ## Transforms -/

/-- `STEP28` (42_loco_function R193): the stop code for step 0; for every other step the low five bits of `s + 3`
shifted right by one, with the low bit of `s + 3` above them as the field `C`; so 29 to 32 give the two stop and the
two emergency codes, and from 33 on the sequence repeats with period 32. -/
def Obligations.Step28Table : Prop :=
  (step28 0 = 0b00000 ∧ step28 29 = 0b00000 ∧ step28 30 = 0b10000 ∧ step28 31 = 0b00001 ∧
    step28 32 = 0b10001) ∧
  (∀ s : BitVec 8, s ≠ 0 →
    (step28 s).toNat = 16 * ((s.toNat + 3) % 2) + (s.toNat + 3) % 32 / 2) ∧
  (∀ s : BitVec 8, 33 ≤ s.toNat → step28 s = step28 (s - 32))

/-- `STEP128` (42_loco_function R194): 0 for step 0, otherwise `(s + 1) & 0x7F`, with the corner cases. -/
def Obligations.Step128Table : Prop :=
  (∀ s : BitVec 8, (step128 s).toNat = if s = 0 then 0 else (s.toNat + 1) % 128) ∧
  step128 1 = 2 ∧ step128 126 = 127 ∧ step128 127 = 0 ∧ step128 128 = 1 ∧ step128 255 = 0

/-! ## Bursts and sequences, with an encoder that claims after every copy -/

/-- A POM burst (44_pom R235, R236): four claims publish the identical packet four times, then the request is idle,
the tag still POM and the round-robin indices untouched. -/
def Obligations.PomBurst : Prop :=
  ∀ s : State, noLoad s.agenda = true → s.enc.fam = .pom → s.pom.state ≠ .idle → s.pom.budget = 0 →
    ∃ t, claims 4 s = .next (t, List.replicate 4 (withChecksum (pomPayload s.pom))) ∧
      t.pom = { s.pom with state := .idle, budget := 0 } ∧ t.enc = s.enc ∧ t.loco = s.loco ∧
      t.svc = s.svc ∧ t.power = s.power ∧ t.shared.longPreamble = false

/-- A paged write (45_service_mode R261): 29 claims publish 3 resets, 5 page writes, 6 resets, 5 register writes
and 10 resets, then the sequencer is idle; no callback, the data kept. -/
def Obligations.PagedWriteSequence : Prop :=
  ∀ (s : State) (b : Byte), noLoad s.agenda = true → s.enc.fam = .service → s.svc.state = .pgStart →
    s.svc.budget = 0 → s.svc.data = some b →
    ∃ t, claims 29 s = .next (t,
        List.replicate 3 (withChecksum [0x00, 0x00]) ++
        List.replicate 5 (withChecksum [0x7D, s.svc.page]) ++
        List.replicate 6 (withChecksum [0x00, 0x00]) ++
        List.replicate 5 (withChecksum [0x78 ||| s.svc.reg.setWidth 8, b]) ++
        List.replicate 10 (withChecksum [0x00, 0x00])) ∧
      t.svc = { s.svc with state := .idle, budget := 0 } ∧ t.enc = s.enc ∧ t.cb = s.cb ∧
      t.loco = s.loco ∧ t.power = s.power ∧ t.shared.longPreamble = true

/-- A direct byte write (45_service_mode R262, R258): for all counts `N_D_START`, `N_D_WRITE`, `N_D_RESET` of at least
1, that many claims publish resets, write packets and resets, then the sequencer is idle; no callback, the data
kept. -/
def Obligations.DirectWriteSequence : Prop :=
  ∀ (s : State) (v : BitVec 10) (b : Byte), noLoad s.agenda = true → s.enc.fam = .service →
    s.svc.state = .dStart → s.svc.budget = 0 → s.svc.data = some b →
    v.toNat = (s.svc.cv.toNat + 1023) % 1024 →
    s.par.nDStart ≠ 0 → s.par.nDWrite ≠ 0 → s.par.nDReset ≠ 0 →
    ∃ t, claims (s.par.nDStart.toNat + s.par.nDWrite.toNat + s.par.nDReset.toNat) s = .next (t,
        List.replicate s.par.nDStart.toNat (withChecksum [0x00, 0x00]) ++
        List.replicate s.par.nDWrite.toNat (withChecksum (encode (.svcWrbyte v b))) ++
        List.replicate s.par.nDReset.toNat (withChecksum [0x00, 0x00])) ∧
      t.svc = { s.svc with state := .idle, budget := 0 } ∧ t.enc = s.enc ∧ t.cb = s.cb ∧
      t.loco = s.loco ∧ t.power = s.power ∧ t.shared.longPreamble = true

/-- A read that no decoder acknowledges (45_service_mode R264, R266 corner case (a), R267, R268): nine passes of
17 claims end in the unknown value, reported once, with the sequencer idle and the sensor averaging; with
the default counts of D26. -/
def Obligations.UnacknowledgedRead : Prop :=
  ∀ s : State, noLoad s.agenda = true → s.enc.fam = .service → s.svc.state = .rdStart →
    s.svc.budget = 0 → s.svc.cursor = some 7 → s.svc.data = some 0 →
    s.par.nRdStart = 3 → s.par.nRdVerify = 5 → s.par.nRdReset = 6 → s.par.nRdFinal = 3 →
    ∃ t ps, claims 153 s = .next (t, ps) ∧
      t.svc = { s.svc with state := .idle, budget := 0, cursor := none, data := none } ∧
      t.cb = s.cb ++ [⟨s.svc.cv, none⟩] ∧ t.power.sensorMode = .averaging ∧ t.power.ackFlag = false ∧
      t.enc = s.enc ∧ t.loco = s.loco

/-! ## The transmitter -/

/-- A preamble position (40_transmitter R144, R145): the bit is 1, the countdown moves down, and at the lock
position the handoff flag is cleared; nothing else changes. -/
def Obligations.PreamblePosition : Prop :=
  ∀ s : State, 9 < s.tx.cnt.toNat →
    nextBit s = .next
      ({ s with
          shared := { s.shared with free := if s.tx.cnt = s.tx.lock then false else s.shared.free }
          tx := { s.tx with cnt := s.tx.cnt - 1 } }, true)

/-- A byte-start position that is not the end of the packet (40_transmitter R146, R147): from the preamble the
shared buffer is copied whole and the flag set true; the bit is the 0 separator. -/
def Obligations.ByteStartPosition : Prop :=
  ∀ s : State, s.tx.cnt = 9 →
    (s.tx.bi = 0 → s.shared.len ≠ 0 → s.shared.len.toNat ≤ 6 →
      nextBit s = .next
        ({ s with
            shared := { s.shared with free := true }
            tx := { s.tx with buf := { data := s.shared.data, len := s.shared.len }, cnt := 8 } }, false)) ∧
    (s.tx.bi ≠ 0 → s.tx.bi ≠ s.tx.buf.len →
      nextBit s = .next ({ s with tx := { s.tx with cnt := 8 } }, false))

/-- A data-bit position (40_transmitter R148): count `c` sends bit `c - 1` of the current byte; after bit 0 the next
byte begins. -/
def Obligations.DataBitPosition : Prop :=
  ∀ (s : State) (b : Byte), 1 ≤ s.tx.cnt.toNat → s.tx.cnt.toNat ≤ 8 →
    (packetList s.tx.buf.data)[s.tx.bi.toNat]? = some b →
    nextBit s = .next
      ({ s with
          tx := if s.tx.cnt = 1 then { s.tx with cnt := 9, bi := s.tx.bi + 1 }
                else { s.tx with cnt := s.tx.cnt - 1 } }, b.getLsbD (s.tx.cnt.toNat - 1))

/-- The end of a packet (40_transmitter R149): the stop bit 1; the coming preamble and its lock position are sized
from the shared flag. -/
def Obligations.EndOfPacketPosition : Prop :=
  ∀ s : State, s.tx.cnt = 9 → s.tx.bi ≠ 0 → s.tx.bi = s.tx.buf.len →
    nextBit s = .next
      ({ s with
          tx := { s.tx with
            cnt := if s.shared.longPreamble then 33 else 23
            lock := if s.shared.longPreamble then s.par.lockLong else 21
            bi := 0 } }, true)

/-- `TX_STEP` (40_transmitter R140 to R142): the first half-period starts the queued bit, with `pinA` high and the
bit's period, and queues the bit after it; the second half drives the other pin for the same period; both end with
the ticks. -/
def Obligations.HalfPeriods : Prop :=
  (∀ s : State, s.tx.half = true →
    txStep s = .next (txTicks (if s.tx.cur then 58 else 116)
      { s with tx := { s.tx with
          period := if s.tx.cur then 58 else 116, pinA := false, pinB := true, half := false } })) ∧
  (∀ (s t : State) (b : Bool), s.tx.half = false →
    nextBit { s with tx := { s.tx with
        cur := s.tx.q, period := if s.tx.q then 58 else 116, pinA := true, pinB := false,
        half := true } } = .next (t, b) →
    txStep s = .next (txTicks (if s.tx.q then 58 else 116) { t with tx := { t.tx with q := b } }))

/-- `TX_TICKS` (40_transmitter R151, R152): the accumulators, the two flags and the enable output; the flags are set
and never cleared here. -/
def Obligations.TickAccumulators : Prop :=
  ∀ (d : Nat) (s : State),
    txTicks d s = { s with
      shared := { s.shared with
        tick10 := s.shared.tick10 || decide (10000 ≤ s.tx.acc10 + d)
        tick1 := s.shared.tick1 || (s.par.enable1ms && decide (1000 ≤ s.tx.acc1 + d)) }
      tx := { s.tx with
        acc10 := if 10000 ≤ s.tx.acc10 + d then s.tx.acc10 + d - 10000 else s.tx.acc10 + d
        pinEN := if 10000 ≤ s.tx.acc10 + d then s.power.enable else s.tx.pinEN
        acc1 := if s.par.enable1ms then
            (if 1000 ≤ s.tx.acc1 + d then s.tx.acc1 + d - 1000 else s.tx.acc1 + d)
          else s.tx.acc1 } }

/-- The bit stream from one copy to the next (40_transmitter R150, 30_encoding R100): every byte of the packet copied
behind a 0, most significant bit first, one stop bit, and the preamble whose length the shared flag asks for;
`9 L + 1 + P'` bits, after which the next copy is due. No claim or host step falls in between. -/
def Obligations.PacketOnTheWire : Prop :=
  ∀ s : State, s.tx.cnt = 9 → s.tx.bi = 0 → 3 ≤ s.shared.len.toNat → s.shared.len.toNat ≤ 6 →
    ∃ t, txBits (9 * s.shared.len.toNat + 1 + preambleLength s.shared.longPreamble) s
        = .next (t, frameBits (sharedPacket s) s.shared.longPreamble) ∧
      t.tx.cnt = 9 ∧ t.tx.bi = 0 ∧ txPacket t = sharedPacket s ∧
      t.shared.data = s.shared.data ∧ t.shared.len = s.shared.len

/-- Only the copy ever sets the handoff flag true (10_state R22, 20_memory R84 (c)): in whatever state, a step
that turns it from false to true is a TX step at countdown 9 and byte index 0 which copies the shared packet. -/
def Obligations.OnlyTheCopyFrees : Prop :=
  ∀ s t : State, step s = .next t → s.shared.free = false → t.shared.free = true →
    (s.agenda = [] ∨ ∃ es, s.agenda = .tx :: es) ∧ s.tx.half = false ∧ s.tx.cnt = 9 ∧ s.tx.bi = 0 ∧
      t.tx.buf = { data := s.shared.data, len := s.shared.len }

/-- The enable output changes only in a TX step that reaches a 10 ms boundary, where it takes the requested state
and the 10 ms flag is set, or by a RESET (40_transmitter R152, 70_reset_and_hazards R380). -/
def Obligations.EnableOutputFollowsFlag : Prop :=
  ∀ s t : State, step s = .next t → t.tx.pinEN ≠ s.tx.pinEN →
    ((s.agenda = [] ∨ ∃ es, s.agenda = .tx :: es) ∧ 10000 ≤ s.tx.acc10 + t.tx.period ∧
      t.tx.pinEN = s.power.enable ∧ t.shared.tick10 = true) ∨
    ∃ table iLim vLim es, s.agenda = .reset table iLim vLim :: es

/-! ## The power monitor -/

/-- `PM_TICK10` (46_power_monitor R291 to R293): both averages move by a fifth of the difference; a smoothed current
strictly above the mode's threshold, or a smoothed voltage strictly above its limit, sets the trip and takes the
power request away; nothing else changes and nothing clears a trip. The fifth of the voltage is the spec's default
`VOLT_EMA_WEIGHT`, which this model fixes (log entry 11). -/
def Obligations.MonitorTick : Prop :=
  ∀ (i u ma v : Rat) (p : Power), ma = p.busMA + (i - p.busMA) / 5 → v = p.busVolts + (u - p.busVolts) / 5 →
    pmTick10 i u p =
      if ((if p.serviceMode then p.quiescentMA + 250 else p.limitMA) < ma ∨ p.limitVolts < v) then
        { p with busMA := ma, busVolts := v, trip := true, enable := false }
      else { p with busMA := ma, busVolts := v }

/-- `n` ticks with equal samples `x` (46_power_monitor R291, corner case): the smoothed current is
`x + (b - x) * (4/5)^n`. -/
def Obligations.MovingAverage : Prop :=
  ∀ (x u : Rat) (n : Nat) (p : Power),
    ((pmTick10 x u)^[n] p).busMA = x + (p.busMA - x) * (4 / 5) ^ n

/-- `H_TICK_CONSUME` with the acknowledgement detector (47_host_commands R312, 46_power_monitor R297): each set flag
is cleared and its work done, the 10 ms work first; the detector latches on a raw sample strictly more than 20 mA
above the baseline while armed, and takes the 10 ms sample where the 1 ms flag does not exist. The samples `a`, `u`,
`c` are those supplied; for a negative one, to which R290 gives no result, a free value of the model (log entry 14). -/
def Obligations.TickConsumer : Prop :=
  ∀ (i10 u10 i1 a u c : Rat) (s : State) (p q : Power),
    a = (if i10 < 0 then (Config.freeSample .current10 s.agenda.length i10 : Rat) else i10) →
    u = (if u10 < 0 then (Config.freeSample .voltage10 s.agenda.length u10 : Rat) else u10) →
    c = (if i1 < 0 then (Config.freeSample .current1 s.agenda.length i1 : Rat) else i1) →
    p = (if s.shared.tick10 then pmTick10 a u s.power else s.power) →
    q = { p with ackFlag := p.ackFlag ||
      (decide (p.sensorMode = .trigger) &&
        ((!s.par.enable1ms && s.shared.tick10 && decide (20 < a - p.ackBaseMA)) ||
          (s.par.enable1ms && s.shared.tick1 && decide (20 < c - p.ackBaseMA)))) } →
    hostStep (.tickConsume i10 u10 i1) s = .next { s with
      shared := { s.shared with
        tick10 := false
        tick1 := if s.par.enable1ms then false else s.shared.tick1 }
      power := q }

/-- A trip is cleared only by `H_TRIP_CLEAR`, in a claim of the Estop family or by a RESET (46_power_monitor R294), and the
service mode is entered and left only by `writeServiceCommand` or a RESET (60_exceptions R361). -/
def Obligations.ModeChanges : Prop :=
  ∀ s t : State, step s = .next t →
    (s.power.trip = true → t.power.trip = false →
      (∃ es, s.agenda = .host .tripClear :: es) ∨ (claimDue s ∧ ∃ bs, fetch s = some (.estop, bs)) ∨
        ∃ table iLim vLim es, s.agenda = .reset table iLim vLim :: es) ∧
    (t.power.serviceMode ≠ s.power.serviceMode →
      (∃ cv x verify enter exit es,
        s.agenda = .host (.writeService cv x verify enter exit) :: es ∧ (enter || exit) = true) ∨
        ∃ table iLim vLim es, s.agenda = .reset table iLim vLim :: es)

/-! ## Host commands -/

/-- Entering and leaving service mode (47_host_commands R318, R320): exit wins; both abort a running sequence and
return the sensor to averaging; entering captures the quiescent baseline. -/
def Obligations.ServiceModeEntryAndExit : Prop :=
  ∀ (cv x : Nat) (verify enter : Bool) (s : State),
    hostStep (.writeService cv x verify enter true) s = .next { s with
      svc := { s.svc with state := .idle, budget := 0 }
      power := { s.power with sensorMode := .averaging, serviceMode := false }
      enc := { s.enc with fam := .loco } } ∧
    hostStep (.writeService cv x verify true false) s = .next { s with
      svc := { s.svc with state := .idle, budget := 0 }
      power := { s.power with
        sensorMode := .averaging, serviceMode := true, quiescentMA := s.power.busMA }
      enc := { s.enc with fam := .service } }

/-- A CV command (47_host_commands R318, 30_encoding R117): refused silently outside service mode; inside, the
register, its page and register index are stored, a read starts at bit 7 of a zero byte, a write takes the value
modulo 256 in the paged or the direct sequence. That a CV number wider than its field is cut to eleven bits is the
model's reading (log entry 8). -/
def Obligations.CvCommand : Prop :=
  ∀ (cv x : Nat) (verify : Bool) (s : State),
    (s.power.serviceMode = false →
      hostStep (.writeService cv x verify false false) s = .next s) ∧
    (s.power.serviceMode = true → ∃ v : Svc,
      hostStep (.writeService cv x verify false false) s = .next { s with
        svc := v, enc := { s.enc with fam := .service } } ∧
      v.cv.toNat = cv % 2048 ∧ v.page.toNat = ((cv + 1023) % 1024 / 4 + 1) % 256 ∧
      v.reg.toNat = (cv + 3) % 4 ∧ v.paged = s.svc.paged ∧ v.budget = 0 ∧ v.timeout = s.par.svcTimeoutQs ∧
      (verify = true → v.data = some 0 ∧ v.cursor = some 7 ∧ v.state = .rdStart) ∧
      (verify = false → v.data = some (BitVec.ofNat 8 (x % 256)) ∧ v.cursor = s.svc.cursor ∧
        v.state = if s.svc.paged then .pgStart else .dStart))

/-- The other requests and the two setups (47_host_commands R314 to R316, R318): an emergency stop, an accessory
command, a POM setup, a POM write and `H_SVC_CONFIG`; each writes what the rule names and nothing else; operands are cut
to their field's width (93_implementation_defined U16, log entry 8). -/
def Obligations.FamilyRequests : Prop :=
  ∀ s : State,
    hostStep .estopReq s = .next { s with enc := { s.enc with fam := .estop } } ∧
    (∀ (addr : Nat) (thrown : Bool), addr < 2048 →
      hostStep (.accessory addr thrown) s = .next { s with
        acc := { addr := BitVec.ofNat 11 addr, thrown := thrown }
        enc := { s.enc with fam := .accessory } }) ∧
    (∀ (kind : PomKind) (bitMode : Bool) (bitValue bitPos : Nat),
      hostStep (.pomSetup kind bitMode bitValue bitPos) s = .next { s with
        pom := { s.pom with
          kind := kind, bitMode := bitMode, bitValue := decide (bitValue % 2 = 1)
          bitPos := BitVec.ofNat 3 (bitPos % 8) } }) ∧
    (∀ address cv value : Nat, address < 16384 → cv < 2048 →
      hostStep (.writePom address cv value) s = .next { s with
        pom := { s.pom with
          addr := BitVec.ofNat 14 address, cv := BitVec.ofNat 11 cv
          value := BitVec.ofNat 8 (value % 256)
          state := if s.pom.bitMode then .bitWrite else .byteWrite
          budget := 0, timeout := s.par.pomTimeoutQs }
        enc := { s.enc with fam := .pom } }) ∧
    (∀ paged : Bool, hostStep (.svcConfig paged) s = .next { s with svc := { s.svc with paged := paged } })

/-- `H_QTICK` (47_host_commands R320, R321): each running timeout counts down by one; the one that reaches 0 while its
state tag is not idle aborts its request: idle, budget 0, for a service sequence the sensor back to averaging; no
callback, and the rest of the records kept. -/
def Obligations.QuarterSecondTick : Prop :=
  ∀ s : State, hostStep .qtick s = .next { s with
    pom := if s.pom.timeout = 0 then s.pom
      else if s.pom.timeout = 1 ∧ s.pom.state ≠ .idle then
        { s.pom with timeout := 0, state := .idle, budget := 0 }
      else { s.pom with timeout := s.pom.timeout - 1 }
    svc := if s.svc.timeout = 0 then s.svc
      else if s.svc.timeout = 1 ∧ s.svc.state ≠ .idle then
        { s.svc with timeout := 0, state := .idle, budget := 0 }
      else { s.svc with timeout := s.svc.timeout - 1 }
    power := if s.svc.timeout = 1 ∧ s.svc.state ≠ .idle then
        { s.power with sensorMode := .averaging }
      else s.power }

/-- Track power (47_host_commands R317, R319): a trip refuses power-on silently; only a current trip is cleared by
`H_TRIP_CLEAR`, which requests power again and leaves the smoothed values. -/
def Obligations.TrackPowerCommands : Prop :=
  ∀ s : State,
    (s.power.trip = true → hostStep (.power true) s = .next s ∧
      hostStep .tripClear s = .next { s with power := { s.power with trip := false, enable := true } }) ∧
    (s.power.trip = false → hostStep .tripClear s = .next s ∧
      hostStep (.power true) s = .next { s with power := { s.power with enable := true } }) ∧
    hostStep (.power false) s = .next { s with power := { s.power with enable := false } }

/-- The commands on the locomotive table (47_host_commands R311, R313): one field of one slot is replaced unchecked,
and every non-zero stop timer counts down by one. -/
def Obligations.LocomotiveCommands : Prop :=
  ∀ s : State,
    (∀ (i : Nat) (l : Loco), s.loco[i]? = some l →
      (∀ v, hostStep (.locoWrite i (.addr v)) s = .next { s with loco := s.loco.set i { l with addr := v } }) ∧
      (∀ v, hostStep (.locoWrite i (.useLong v)) s
        = .next { s with loco := s.loco.set i { l with useLong := v } }) ∧
      (∀ v, hostStep (.locoWrite i (.use128 v)) s
        = .next { s with loco := s.loco.set i { l with use128 := v } }) ∧
      (∀ v, hostStep (.locoWrite i (.speedStep v)) s
        = .next { s with loco := s.loco.set i { l with speedStep := v } }) ∧
      (∀ v, hostStep (.locoWrite i (.forward v)) s
        = .next { s with loco := s.loco.set i { l with forward := v } }) ∧
      (∀ v, hostStep (.locoWrite i (.brake v)) s
        = .next { s with loco := s.loco.set i { l with brake := v } }) ∧
      (∀ v, hostStep (.locoWrite i (.fn v)) s = .next { s with loco := s.loco.set i { l with fn := v } }) ∧
      (∀ v, hostStep (.locoWrite i (.nudge v)) s
        = .next { s with loco := s.loco.set i { l with nudge := v } }) ∧
      (∀ v, hostStep (.locoWrite i (.estop v)) s
        = .next { s with loco := s.loco.set i { l with estop := v } })) ∧
    hostStep .estopTick s = .next { s with
      loco := s.loco.map fun l => { l with estop := BitVec.ofNat 8 (l.estop.toNat - 1) } }

/-! ## Whole-machine rules -/

/-- The single-writer discipline (20_memory R83, 47_host_commands R310): TX writes no record but its own and the
flags of `shared`; a claim writes no `tx`, `acc`, tick flag, and of a slot only `nudge` and `estop`; a host command
writes no packet, no handoff flag, no `tx` and no round-robin index. -/
def Obligations.SingleWriter : Prop :=
  (∀ s t : State, txStep s = .next t →
    t = { s with tx := t.tx, shared := { s.shared with
      free := t.shared.free, tick10 := t.shared.tick10, tick1 := t.shared.tick1 } }) ∧
  (∀ (i : Instr) (s t : State), exec i s = .next t →
    t.tx = s.tx ∧ t.acc = s.acc ∧ t.par = s.par ∧ t.agenda = s.agenda.tail ∧
      t.shared.tick10 = s.shared.tick10 ∧ t.shared.tick1 = s.shared.tick1 ∧ t.shared.free = false ∧
      t.power.serviceMode = s.power.serviceMode ∧ t.power.limitMA = s.power.limitMA ∧
      t.power.limitVolts = s.power.limitVolts ∧ t.power.busVolts = s.power.busVolts ∧
      t.loco.map (fun l => { l with nudge := 0, estop := 0 })
        = s.loco.map (fun l => { l with nudge := 0, estop := 0 })) ∧
  (∀ (c : HostCmd) (s t : State), hostStep c s = .next t →
    t.tx = s.tx ∧ t.par = s.par ∧ t.agenda = s.agenda ∧ t.loco.length = s.loco.length ∧
      t.shared = { s.shared with tick10 := t.shared.tick10, tick1 := t.shared.tick1 } ∧
      t.enc = { s.enc with fam := t.enc.fam })

/-- Callback events (45_service_mode R268, 47_host_commands R323): a step leaves the queue, delivers the oldest
event, or appends exactly one, in a claim of the Service family in the state `RD_FINAL` with cursor -1; a RESET empties
it. That the delivery is a host command of its own, which does nothing on an empty port, is the model's choice (log
entry 16). -/
def Obligations.CallbackQueue : Prop :=
  (∀ s : State, hostStep .takeCallback s = .next { s with cb := s.cb.tail }) ∧
  ∀ s t : State, step s = .next t →
    t.cb = s.cb ∨
    ((∃ es, s.agenda = .host .takeCallback :: es) ∧ t.cb = s.cb.tail) ∨
    (claimDue s ∧ (∃ bs, fetch s = some (.service, bs)) ∧
      s.svc.state = .rdFinal ∧ s.svc.cursor = none ∧ t.svc.state = .idle ∧
      (t.svc.data = s.svc.data ∨ t.svc.data = none) ∧ t.cb = s.cb ++ [⟨s.svc.cv, t.svc.data⟩]) ∨
    ((∃ table iLim vLim es, s.agenda = .reset table iLim vLim :: es) ∧ t.cb = [])

/-- The values the spec gives for reset (10_state R44, 70_reset_and_hazards R380, R383), for every parameter set,
capacity and table; the fields R44 calls unspecified are not spoken of. For a table whose length is not the capacity,
the empty slots of the rest and the loss of what is beyond are the model's choice (log entry 12). -/
def Obligations.ResetValues : Prop :=
  ∀ (par : Params) (n : Nat) (table : List LocoBoot) (iLim vLim : Rat) (es : List Event) (s : State),
    s = State.boot par n table iLim vLim es →
    s.shared = { data := ⟨0xFF, 0x00, 0xFF, 0x00, 0x00, 0x00⟩, len := 3, longPreamble := false,
                 free := false, tick10 := false, tick1 := false } ∧
    s.tx = { buf := { data := ⟨0xFF, 0x00, 0xFF, 0x00, 0x00, 0x00⟩, len := 3 }, cnt := 23, bi := 0,
             lock := 21, q := true, cur := true, half := false, acc10 := 0, acc1 := 0, pinA := false,
             pinB := false, pinEN := false, period := s.tx.period } ∧
    s.enc = { fam := .loco, li := 0, fi := 0, fg := 0 } ∧
    s.loco.length = n ∧
    (∀ i, i < n → s.loco[i]? = some
      (match table[i]? with
       | some b => { addr := b.addr, useLong := b.useLong, use128 := b.use128, speedStep := b.speedStep,
                     forward := b.forward, brake := b.brake, fn := b.fn, estop := 0, nudge := 0 }
       | none => { addr := 0, useLong := false, use128 := false, speedStep := 0, forward := false,
                   brake := false, fn := 0, estop := 0, nudge := 0 })) ∧
    (s.pom.state = .idle ∧ s.pom.budget = 0 ∧ s.pom.timeout = 0) ∧
    (s.svc.state = .idle ∧ s.svc.budget = 0 ∧ s.svc.timeout = 0 ∧ s.svc.data = none ∧
      s.svc.cursor = none ∧ s.svc.paged = false) ∧
    s.power = { busMA := 0, busVolts := 0, trip := false, enable := false, serviceMode := false,
                quiescentMA := 0, ackBaseMA := 0, ackFlag := false, sensorMode := .averaging,
                limitMA := iLim, limitVolts := vLim } ∧
    s.cb = []

/-- The first packets after reset (70_reset_and_hazards R382): whatever the table, the first copy, of the idle packet,
is made in the 29th TX step, which sets the flag for the first time; a claim right after it publishes slot 0's
packet. -/
def Obligations.FirstPacketsAfterReset : Prop :=
  ∀ (par : Params) (n : Nat) (b : LocoBoot) (table : List LocoBoot) (iLim vLim : Rat) (s : State),
    s = State.boot par (n + 1) (b :: table) iLim vLim (List.replicate 29 .tx ++ [.enc]) →
    configStop s = none →
    (∀ k, k ≤ 28 → ∃ t, Host.Core.run core k s = .next t ∧ t.shared.free = false) ∧
    (∃ t, Host.Core.run core 29 s = .next t ∧ t.shared.free = true ∧
      txPacket t = [0xFF, 0x00, 0xFF] ∧ t.tx.cnt = 8 ∧ t.tx.q = false) ∧
    (∃ t, Host.Core.run core 30 s = .next t ∧ t.shared.free = false ∧
      sharedPacket t = withChecksum (locoPayload (bootSlot b)) ∧ t.enc.fam = .function)

/-- Bytes 0xE8 to 0xFE never begin a packet (30_encoding R120 a), for a host that keeps the addresses legal
(70_reset_and_hazards R396; an illegal long address is masked and sent, 10_state R31): from legal records DISPATCH
assembles a packet with a legal address and no such first byte; no step from legal records brings such a packet into a
buffer that holds none; after reset none does; and the core's own steps keep legal addresses legal. -/
def Obligations.ReservedFirstBytesNeverSent : Prop :=
  (∀ (s : State) (f : Family) (bs : List Byte), AddressesLegal s → assemble s = some (f, bs) →
    reservedFirst bs = false ∧ ∃ i : Instr, decode f bs = .ok i ∧ i.legal = true) ∧
  (∀ s t : State, noLoad s.agenda = true → AddressesLegal s → step s = .next t → ReservedFree s →
    ReservedFree t) ∧
  (∀ (par : Params) (n : Nat) (table : List LocoBoot) (iLim vLim : Rat) (es : List Event),
    ReservedFree (State.boot par n table iLim vLim es)) ∧
  (∀ s t : State, (s.agenda = [] ∨ (∃ es, s.agenda = .tx :: es) ∨ ∃ es, s.agenda = .enc :: es) →
    step s = .next t → AddressesLegal s → AddressesLegal t)

/-! ## The invariant -/

/-- The invariant holds right after reset, for every legal configuration and table. -/
def Obligations.ResetInvariant : Prop :=
  Inv State.reset ∧
  ∀ (par : Params) (n : Nat) (table : List LocoBoot) (iLim vLim : Rat) (es : List Event),
    configStop (State.boot par n table iLim vLim es) = none → noLoad es = true →
    Inv (State.boot par n table iLim vLim es)

/-- Every step of every agent keeps the invariant: buffers hold packets of the opcode table with a right checksum
and the right preamble attribute (20_memory R85, 30_encoding R103, R118, R120), the transmitter's counters and pins
stay in range (40_transmitter R150, 10_state R24 to R27), the indices below the capacity (R29), a trip excludes a
power request (R319), and during a burst the shared buffer holds the burst's packet (R174). That currents and voltages
stay non-negative (R36) rests, for a negative sample, on the bound of the free value it is read as, the model's choice
(log entry 14). -/
def Obligations.StepKeepsInvariant : Prop :=
  ∀ s t : State, Inv s → step s = .next t → Inv t

/-- In a state with the invariant no step faults (60_exceptions R345), and none is refused but `H_LOCO_WRITE` to a slot
number that does not exist; that refusal is the model's own (log entry 15). -/
def Obligations.InvariantNeverStops : Prop :=
  ∀ s : State, Inv s →
    (∃ t, step s = .next t) ∨
    (∃ i w es, s.agenda = .host (.locoWrite i w) :: es ∧ s.loco.length ≤ i ∧
      step s = .refused .noSuchSlot)
end

