-- ==== Sys2Proof/Laws/State.lean ====
section
/-! SUPPORT. The small lemmas of the state record: one for each field and each update, true by `rfl`. First
the ten setters, then the named operations that are compositions of them. -/

namespace Sys2Proof.Machine

@[simp] theorem setShared_shared (s : State) (v : Shared) : (setShared s v).shared = v := rfl
@[simp] theorem setShared_tx (s : State) (v : Shared) : (setShared s v).tx = s.tx := rfl
@[simp] theorem setShared_enc (s : State) (v : Shared) : (setShared s v).enc = s.enc := rfl
@[simp] theorem setShared_loco (s : State) (v : Shared) : (setShared s v).loco = s.loco := rfl
@[simp] theorem setShared_acc (s : State) (v : Shared) : (setShared s v).acc = s.acc := rfl
@[simp] theorem setShared_pom (s : State) (v : Shared) : (setShared s v).pom = s.pom := rfl
@[simp] theorem setShared_svc (s : State) (v : Shared) : (setShared s v).svc = s.svc := rfl
@[simp] theorem setShared_power (s : State) (v : Shared) : (setShared s v).power = s.power := rfl
@[simp] theorem setShared_cb (s : State) (v : Shared) : (setShared s v).cb = s.cb := rfl
@[simp] theorem setShared_par (s : State) (v : Shared) : (setShared s v).par = s.par := rfl
@[simp] theorem setShared_agenda (s : State) (v : Shared) : (setShared s v).agenda = s.agenda := rfl

@[simp] theorem setTx_shared (s : State) (v : Tx) : (setTx s v).shared = s.shared := rfl
@[simp] theorem setTx_tx (s : State) (v : Tx) : (setTx s v).tx = v := rfl
@[simp] theorem setTx_enc (s : State) (v : Tx) : (setTx s v).enc = s.enc := rfl
@[simp] theorem setTx_loco (s : State) (v : Tx) : (setTx s v).loco = s.loco := rfl
@[simp] theorem setTx_acc (s : State) (v : Tx) : (setTx s v).acc = s.acc := rfl
@[simp] theorem setTx_pom (s : State) (v : Tx) : (setTx s v).pom = s.pom := rfl
@[simp] theorem setTx_svc (s : State) (v : Tx) : (setTx s v).svc = s.svc := rfl
@[simp] theorem setTx_power (s : State) (v : Tx) : (setTx s v).power = s.power := rfl
@[simp] theorem setTx_cb (s : State) (v : Tx) : (setTx s v).cb = s.cb := rfl
@[simp] theorem setTx_par (s : State) (v : Tx) : (setTx s v).par = s.par := rfl
@[simp] theorem setTx_agenda (s : State) (v : Tx) : (setTx s v).agenda = s.agenda := rfl

@[simp] theorem setEnc_shared (s : State) (v : Enc) : (setEnc s v).shared = s.shared := rfl
@[simp] theorem setEnc_tx (s : State) (v : Enc) : (setEnc s v).tx = s.tx := rfl
@[simp] theorem setEnc_enc (s : State) (v : Enc) : (setEnc s v).enc = v := rfl
@[simp] theorem setEnc_loco (s : State) (v : Enc) : (setEnc s v).loco = s.loco := rfl
@[simp] theorem setEnc_acc (s : State) (v : Enc) : (setEnc s v).acc = s.acc := rfl
@[simp] theorem setEnc_pom (s : State) (v : Enc) : (setEnc s v).pom = s.pom := rfl
@[simp] theorem setEnc_svc (s : State) (v : Enc) : (setEnc s v).svc = s.svc := rfl
@[simp] theorem setEnc_power (s : State) (v : Enc) : (setEnc s v).power = s.power := rfl
@[simp] theorem setEnc_cb (s : State) (v : Enc) : (setEnc s v).cb = s.cb := rfl
@[simp] theorem setEnc_par (s : State) (v : Enc) : (setEnc s v).par = s.par := rfl
@[simp] theorem setEnc_agenda (s : State) (v : Enc) : (setEnc s v).agenda = s.agenda := rfl

@[simp] theorem setLoco_shared (s : State) (v : List Loco) : (setLoco s v).shared = s.shared := rfl
@[simp] theorem setLoco_tx (s : State) (v : List Loco) : (setLoco s v).tx = s.tx := rfl
@[simp] theorem setLoco_enc (s : State) (v : List Loco) : (setLoco s v).enc = s.enc := rfl
@[simp] theorem setLoco_loco (s : State) (v : List Loco) : (setLoco s v).loco = v := rfl
@[simp] theorem setLoco_acc (s : State) (v : List Loco) : (setLoco s v).acc = s.acc := rfl
@[simp] theorem setLoco_pom (s : State) (v : List Loco) : (setLoco s v).pom = s.pom := rfl
@[simp] theorem setLoco_svc (s : State) (v : List Loco) : (setLoco s v).svc = s.svc := rfl
@[simp] theorem setLoco_power (s : State) (v : List Loco) : (setLoco s v).power = s.power := rfl
@[simp] theorem setLoco_cb (s : State) (v : List Loco) : (setLoco s v).cb = s.cb := rfl
@[simp] theorem setLoco_par (s : State) (v : List Loco) : (setLoco s v).par = s.par := rfl
@[simp] theorem setLoco_agenda (s : State) (v : List Loco) : (setLoco s v).agenda = s.agenda := rfl

@[simp] theorem setAcc_shared (s : State) (v : Acc) : (setAcc s v).shared = s.shared := rfl
@[simp] theorem setAcc_tx (s : State) (v : Acc) : (setAcc s v).tx = s.tx := rfl
@[simp] theorem setAcc_enc (s : State) (v : Acc) : (setAcc s v).enc = s.enc := rfl
@[simp] theorem setAcc_loco (s : State) (v : Acc) : (setAcc s v).loco = s.loco := rfl
@[simp] theorem setAcc_acc (s : State) (v : Acc) : (setAcc s v).acc = v := rfl
@[simp] theorem setAcc_pom (s : State) (v : Acc) : (setAcc s v).pom = s.pom := rfl
@[simp] theorem setAcc_svc (s : State) (v : Acc) : (setAcc s v).svc = s.svc := rfl
@[simp] theorem setAcc_power (s : State) (v : Acc) : (setAcc s v).power = s.power := rfl
@[simp] theorem setAcc_cb (s : State) (v : Acc) : (setAcc s v).cb = s.cb := rfl
@[simp] theorem setAcc_par (s : State) (v : Acc) : (setAcc s v).par = s.par := rfl
@[simp] theorem setAcc_agenda (s : State) (v : Acc) : (setAcc s v).agenda = s.agenda := rfl

@[simp] theorem setPom_shared (s : State) (v : Pom) : (setPom s v).shared = s.shared := rfl
@[simp] theorem setPom_tx (s : State) (v : Pom) : (setPom s v).tx = s.tx := rfl
@[simp] theorem setPom_enc (s : State) (v : Pom) : (setPom s v).enc = s.enc := rfl
@[simp] theorem setPom_loco (s : State) (v : Pom) : (setPom s v).loco = s.loco := rfl
@[simp] theorem setPom_acc (s : State) (v : Pom) : (setPom s v).acc = s.acc := rfl
@[simp] theorem setPom_pom (s : State) (v : Pom) : (setPom s v).pom = v := rfl
@[simp] theorem setPom_svc (s : State) (v : Pom) : (setPom s v).svc = s.svc := rfl
@[simp] theorem setPom_power (s : State) (v : Pom) : (setPom s v).power = s.power := rfl
@[simp] theorem setPom_cb (s : State) (v : Pom) : (setPom s v).cb = s.cb := rfl
@[simp] theorem setPom_par (s : State) (v : Pom) : (setPom s v).par = s.par := rfl
@[simp] theorem setPom_agenda (s : State) (v : Pom) : (setPom s v).agenda = s.agenda := rfl

@[simp] theorem setSvc_shared (s : State) (v : Svc) : (setSvc s v).shared = s.shared := rfl
@[simp] theorem setSvc_tx (s : State) (v : Svc) : (setSvc s v).tx = s.tx := rfl
@[simp] theorem setSvc_enc (s : State) (v : Svc) : (setSvc s v).enc = s.enc := rfl
@[simp] theorem setSvc_loco (s : State) (v : Svc) : (setSvc s v).loco = s.loco := rfl
@[simp] theorem setSvc_acc (s : State) (v : Svc) : (setSvc s v).acc = s.acc := rfl
@[simp] theorem setSvc_pom (s : State) (v : Svc) : (setSvc s v).pom = s.pom := rfl
@[simp] theorem setSvc_svc (s : State) (v : Svc) : (setSvc s v).svc = v := rfl
@[simp] theorem setSvc_power (s : State) (v : Svc) : (setSvc s v).power = s.power := rfl
@[simp] theorem setSvc_cb (s : State) (v : Svc) : (setSvc s v).cb = s.cb := rfl
@[simp] theorem setSvc_par (s : State) (v : Svc) : (setSvc s v).par = s.par := rfl
@[simp] theorem setSvc_agenda (s : State) (v : Svc) : (setSvc s v).agenda = s.agenda := rfl

@[simp] theorem setPower_shared (s : State) (v : Power) : (setPower s v).shared = s.shared := rfl
@[simp] theorem setPower_tx (s : State) (v : Power) : (setPower s v).tx = s.tx := rfl
@[simp] theorem setPower_enc (s : State) (v : Power) : (setPower s v).enc = s.enc := rfl
@[simp] theorem setPower_loco (s : State) (v : Power) : (setPower s v).loco = s.loco := rfl
@[simp] theorem setPower_acc (s : State) (v : Power) : (setPower s v).acc = s.acc := rfl
@[simp] theorem setPower_pom (s : State) (v : Power) : (setPower s v).pom = s.pom := rfl
@[simp] theorem setPower_svc (s : State) (v : Power) : (setPower s v).svc = s.svc := rfl
@[simp] theorem setPower_power (s : State) (v : Power) : (setPower s v).power = v := rfl
@[simp] theorem setPower_cb (s : State) (v : Power) : (setPower s v).cb = s.cb := rfl
@[simp] theorem setPower_par (s : State) (v : Power) : (setPower s v).par = s.par := rfl
@[simp] theorem setPower_agenda (s : State) (v : Power) : (setPower s v).agenda = s.agenda := rfl

@[simp] theorem setCb_shared (s : State) (v : List Callback) : (setCb s v).shared = s.shared := rfl
@[simp] theorem setCb_tx (s : State) (v : List Callback) : (setCb s v).tx = s.tx := rfl
@[simp] theorem setCb_enc (s : State) (v : List Callback) : (setCb s v).enc = s.enc := rfl
@[simp] theorem setCb_loco (s : State) (v : List Callback) : (setCb s v).loco = s.loco := rfl
@[simp] theorem setCb_acc (s : State) (v : List Callback) : (setCb s v).acc = s.acc := rfl
@[simp] theorem setCb_pom (s : State) (v : List Callback) : (setCb s v).pom = s.pom := rfl
@[simp] theorem setCb_svc (s : State) (v : List Callback) : (setCb s v).svc = s.svc := rfl
@[simp] theorem setCb_power (s : State) (v : List Callback) : (setCb s v).power = s.power := rfl
@[simp] theorem setCb_cb (s : State) (v : List Callback) : (setCb s v).cb = v := rfl
@[simp] theorem setCb_par (s : State) (v : List Callback) : (setCb s v).par = s.par := rfl
@[simp] theorem setCb_agenda (s : State) (v : List Callback) : (setCb s v).agenda = s.agenda := rfl

@[simp] theorem setAgenda_shared (s : State) (v : List Event) : (setAgenda s v).shared = s.shared := rfl
@[simp] theorem setAgenda_tx (s : State) (v : List Event) : (setAgenda s v).tx = s.tx := rfl
@[simp] theorem setAgenda_enc (s : State) (v : List Event) : (setAgenda s v).enc = s.enc := rfl
@[simp] theorem setAgenda_loco (s : State) (v : List Event) : (setAgenda s v).loco = s.loco := rfl
@[simp] theorem setAgenda_acc (s : State) (v : List Event) : (setAgenda s v).acc = s.acc := rfl
@[simp] theorem setAgenda_pom (s : State) (v : List Event) : (setAgenda s v).pom = s.pom := rfl
@[simp] theorem setAgenda_svc (s : State) (v : List Event) : (setAgenda s v).svc = s.svc := rfl
@[simp] theorem setAgenda_power (s : State) (v : List Event) : (setAgenda s v).power = s.power := rfl
@[simp] theorem setAgenda_cb (s : State) (v : List Event) : (setAgenda s v).cb = s.cb := rfl
@[simp] theorem setAgenda_par (s : State) (v : List Event) : (setAgenda s v).par = s.par := rfl
@[simp] theorem setAgenda_agenda (s : State) (v : List Event) : (setAgenda s v).agenda = v := rfl

@[simp] theorem popTurn_shared (s : State) : (popTurn s).shared = s.shared := rfl
@[simp] theorem popTurn_tx (s : State) : (popTurn s).tx = s.tx := rfl
@[simp] theorem popTurn_enc (s : State) : (popTurn s).enc = s.enc := rfl
@[simp] theorem popTurn_loco (s : State) : (popTurn s).loco = s.loco := rfl
@[simp] theorem popTurn_acc (s : State) : (popTurn s).acc = s.acc := rfl
@[simp] theorem popTurn_pom (s : State) : (popTurn s).pom = s.pom := rfl
@[simp] theorem popTurn_svc (s : State) : (popTurn s).svc = s.svc := rfl
@[simp] theorem popTurn_power (s : State) : (popTurn s).power = s.power := rfl
@[simp] theorem popTurn_cb (s : State) : (popTurn s).cb = s.cb := rfl
@[simp] theorem popTurn_par (s : State) : (popTurn s).par = s.par := rfl
@[simp] theorem popTurn_agenda (s : State) : (popTurn s).agenda = s.agenda.tail := rfl

@[simp] theorem setFam_shared (f : Family) (s : State) : (setFam s f).shared = s.shared := rfl
@[simp] theorem setFam_tx (f : Family) (s : State) : (setFam s f).tx = s.tx := rfl
@[simp] theorem setFam_enc (f : Family) (s : State) : (setFam s f).enc = { s.enc with fam := f } := rfl
@[simp] theorem setFam_loco (f : Family) (s : State) : (setFam s f).loco = s.loco := rfl
@[simp] theorem setFam_acc (f : Family) (s : State) : (setFam s f).acc = s.acc := rfl
@[simp] theorem setFam_pom (f : Family) (s : State) : (setFam s f).pom = s.pom := rfl
@[simp] theorem setFam_svc (f : Family) (s : State) : (setFam s f).svc = s.svc := rfl
@[simp] theorem setFam_power (f : Family) (s : State) : (setFam s f).power = s.power := rfl
@[simp] theorem setFam_cb (f : Family) (s : State) : (setFam s f).cb = s.cb := rfl
@[simp] theorem setFam_par (f : Family) (s : State) : (setFam s f).par = s.par := rfl
@[simp] theorem setFam_agenda (f : Family) (s : State) : (setFam s f).agenda = s.agenda := rfl

@[simp] theorem claim_shared (s : State) : (claim s).shared = { s.shared with free := false } := rfl
@[simp] theorem claim_tx (s : State) : (claim s).tx = s.tx := rfl
@[simp] theorem claim_enc (s : State) : (claim s).enc = s.enc := rfl
@[simp] theorem claim_loco (s : State) : (claim s).loco = s.loco := rfl
@[simp] theorem claim_acc (s : State) : (claim s).acc = s.acc := rfl
@[simp] theorem claim_pom (s : State) : (claim s).pom = s.pom := rfl
@[simp] theorem claim_svc (s : State) : (claim s).svc = s.svc := rfl
@[simp] theorem claim_power (s : State) : (claim s).power = s.power := rfl
@[simp] theorem claim_cb (s : State) : (claim s).cb = s.cb := rfl
@[simp] theorem claim_par (s : State) : (claim s).par = s.par := rfl
@[simp] theorem claim_agenda (s : State) : (claim s).agenda = s.agenda.tail := rfl

@[simp] theorem publish_shared (bs : List Byte) (lp : Bool) (s : State) : (publish bs lp s).shared = { s.shared with
      data := writeFrom s.shared.data 0 (bs ++ [xorBytes bs])
      len := BitVec.ofNat 3 (bs.length + 1)
      longPreamble := lp } := rfl
@[simp] theorem publish_tx (bs : List Byte) (lp : Bool) (s : State) : (publish bs lp s).tx = s.tx := rfl
@[simp] theorem publish_enc (bs : List Byte) (lp : Bool) (s : State) : (publish bs lp s).enc = s.enc := rfl
@[simp] theorem publish_loco (bs : List Byte) (lp : Bool) (s : State) : (publish bs lp s).loco = s.loco := rfl
@[simp] theorem publish_acc (bs : List Byte) (lp : Bool) (s : State) : (publish bs lp s).acc = s.acc := rfl
@[simp] theorem publish_pom (bs : List Byte) (lp : Bool) (s : State) : (publish bs lp s).pom = s.pom := rfl
@[simp] theorem publish_svc (bs : List Byte) (lp : Bool) (s : State) : (publish bs lp s).svc = s.svc := rfl
@[simp] theorem publish_power (bs : List Byte) (lp : Bool) (s : State) : (publish bs lp s).power = s.power := rfl
@[simp] theorem publish_cb (bs : List Byte) (lp : Bool) (s : State) : (publish bs lp s).cb = s.cb := rfl
@[simp] theorem publish_par (bs : List Byte) (lp : Bool) (s : State) : (publish bs lp s).par = s.par := rfl
@[simp] theorem publish_agenda (bs : List Byte) (lp : Bool) (s : State) : (publish bs lp s).agenda = s.agenda := rfl

@[simp] theorem emitCallback_shared (r : BitVec 11) (x : CvData) (s : State) : (emitCallback s r x).shared = s.shared := rfl
@[simp] theorem emitCallback_tx (r : BitVec 11) (x : CvData) (s : State) : (emitCallback s r x).tx = s.tx := rfl
@[simp] theorem emitCallback_enc (r : BitVec 11) (x : CvData) (s : State) : (emitCallback s r x).enc = s.enc := rfl
@[simp] theorem emitCallback_loco (r : BitVec 11) (x : CvData) (s : State) : (emitCallback s r x).loco = s.loco := rfl
@[simp] theorem emitCallback_acc (r : BitVec 11) (x : CvData) (s : State) : (emitCallback s r x).acc = s.acc := rfl
@[simp] theorem emitCallback_pom (r : BitVec 11) (x : CvData) (s : State) : (emitCallback s r x).pom = s.pom := rfl
@[simp] theorem emitCallback_svc (r : BitVec 11) (x : CvData) (s : State) : (emitCallback s r x).svc = s.svc := rfl
@[simp] theorem emitCallback_power (r : BitVec 11) (x : CvData) (s : State) : (emitCallback s r x).power = s.power := rfl
@[simp] theorem emitCallback_cb (r : BitVec 11) (x : CvData) (s : State) : (emitCallback s r x).cb = s.cb ++ [⟨r, x⟩] := rfl
@[simp] theorem emitCallback_par (r : BitVec 11) (x : CvData) (s : State) : (emitCallback s r x).par = s.par := rfl
@[simp] theorem emitCallback_agenda (r : BitVec 11) (x : CvData) (s : State) : (emitCallback s r x).agenda = s.agenda := rfl

@[simp] theorem pomAbort_shared (s : State) : (pomAbort s).shared = s.shared := rfl
@[simp] theorem pomAbort_tx (s : State) : (pomAbort s).tx = s.tx := rfl
@[simp] theorem pomAbort_enc (s : State) : (pomAbort s).enc = s.enc := rfl
@[simp] theorem pomAbort_loco (s : State) : (pomAbort s).loco = s.loco := rfl
@[simp] theorem pomAbort_acc (s : State) : (pomAbort s).acc = s.acc := rfl
@[simp] theorem pomAbort_pom (s : State) : (pomAbort s).pom = { s.pom with state := .idle, budget := 0 } := rfl
@[simp] theorem pomAbort_svc (s : State) : (pomAbort s).svc = s.svc := rfl
@[simp] theorem pomAbort_power (s : State) : (pomAbort s).power = s.power := rfl
@[simp] theorem pomAbort_cb (s : State) : (pomAbort s).cb = s.cb := rfl
@[simp] theorem pomAbort_par (s : State) : (pomAbort s).par = s.par := rfl
@[simp] theorem pomAbort_agenda (s : State) : (pomAbort s).agenda = s.agenda := rfl

@[simp] theorem svcAbort_shared (s : State) : (svcAbort s).shared = s.shared := rfl
@[simp] theorem svcAbort_tx (s : State) : (svcAbort s).tx = s.tx := rfl
@[simp] theorem svcAbort_enc (s : State) : (svcAbort s).enc = s.enc := rfl
@[simp] theorem svcAbort_loco (s : State) : (svcAbort s).loco = s.loco := rfl
@[simp] theorem svcAbort_acc (s : State) : (svcAbort s).acc = s.acc := rfl
@[simp] theorem svcAbort_pom (s : State) : (svcAbort s).pom = s.pom := rfl
@[simp] theorem svcAbort_svc (s : State) : (svcAbort s).svc = { s.svc with state := .idle, budget := 0 } := rfl
@[simp] theorem svcAbort_power (s : State) : (svcAbort s).power = disarmAck s.power := rfl
@[simp] theorem svcAbort_cb (s : State) : (svcAbort s).cb = s.cb := rfl
@[simp] theorem svcAbort_par (s : State) : (svcAbort s).par = s.par := rfl
@[simp] theorem svcAbort_agenda (s : State) : (svcAbort s).agenda = s.agenda := rfl

@[simp] theorem advanceLoco_shared (s : State) : (advanceLoco s).shared = s.shared := rfl
@[simp] theorem advanceLoco_tx (s : State) : (advanceLoco s).tx = s.tx := rfl
@[simp] theorem advanceLoco_enc (s : State) : (advanceLoco s).enc = { s.enc with
      li := nextIndex s.enc.li s.loco.length, fam := .function } := rfl
@[simp] theorem advanceLoco_loco (s : State) : (advanceLoco s).loco = s.loco := rfl
@[simp] theorem advanceLoco_acc (s : State) : (advanceLoco s).acc = s.acc := rfl
@[simp] theorem advanceLoco_pom (s : State) : (advanceLoco s).pom = s.pom := rfl
@[simp] theorem advanceLoco_svc (s : State) : (advanceLoco s).svc = s.svc := rfl
@[simp] theorem advanceLoco_power (s : State) : (advanceLoco s).power = s.power := rfl
@[simp] theorem advanceLoco_cb (s : State) : (advanceLoco s).cb = s.cb := rfl
@[simp] theorem advanceLoco_par (s : State) : (advanceLoco s).par = s.par := rfl
@[simp] theorem advanceLoco_agenda (s : State) : (advanceLoco s).agenda = s.agenda := rfl

@[simp] theorem holdLoco_shared (l : Loco) (s : State) : (holdLoco l s).shared = s.shared := rfl
@[simp] theorem holdLoco_tx (l : Loco) (s : State) : (holdLoco l s).tx = s.tx := rfl
@[simp] theorem holdLoco_enc (l : Loco) (s : State) : (holdLoco l s).enc = { s.enc with fam := .function } := rfl
@[simp] theorem holdLoco_loco (l : Loco) (s : State) : (holdLoco l s).loco = s.loco.set s.enc.li { l with nudge := l.nudge - 1 } := rfl
@[simp] theorem holdLoco_acc (l : Loco) (s : State) : (holdLoco l s).acc = s.acc := rfl
@[simp] theorem holdLoco_pom (l : Loco) (s : State) : (holdLoco l s).pom = s.pom := rfl
@[simp] theorem holdLoco_svc (l : Loco) (s : State) : (holdLoco l s).svc = s.svc := rfl
@[simp] theorem holdLoco_power (l : Loco) (s : State) : (holdLoco l s).power = s.power := rfl
@[simp] theorem holdLoco_cb (l : Loco) (s : State) : (holdLoco l s).cb = s.cb := rfl
@[simp] theorem holdLoco_par (l : Loco) (s : State) : (holdLoco l s).par = s.par := rfl
@[simp] theorem holdLoco_agenda (l : Loco) (s : State) : (holdLoco l s).agenda = s.agenda := rfl

@[simp] theorem advanceFunction_shared (s : State) : (advanceFunction s).shared = s.shared := rfl
@[simp] theorem advanceFunction_tx (s : State) : (advanceFunction s).tx = s.tx := rfl
@[simp] theorem advanceFunction_enc (s : State) : (advanceFunction s).enc = { s.enc with
      fg := s.enc.fg + 1
      fi := if s.enc.fg + 1 = 0 then nextIndex s.enc.fi s.loco.length else s.enc.fi
      fam := .loco } := rfl
@[simp] theorem advanceFunction_loco (s : State) : (advanceFunction s).loco = s.loco := rfl
@[simp] theorem advanceFunction_acc (s : State) : (advanceFunction s).acc = s.acc := rfl
@[simp] theorem advanceFunction_pom (s : State) : (advanceFunction s).pom = s.pom := rfl
@[simp] theorem advanceFunction_svc (s : State) : (advanceFunction s).svc = s.svc := rfl
@[simp] theorem advanceFunction_power (s : State) : (advanceFunction s).power = s.power := rfl
@[simp] theorem advanceFunction_cb (s : State) : (advanceFunction s).cb = s.cb := rfl
@[simp] theorem advanceFunction_par (s : State) : (advanceFunction s).par = s.par := rfl
@[simp] theorem advanceFunction_agenda (s : State) : (advanceFunction s).agenda = s.agenda := rfl

@[simp] theorem estopEffects_shared (s : State) : (estopEffects s).shared = s.shared := rfl
@[simp] theorem estopEffects_tx (s : State) : (estopEffects s).tx = s.tx := rfl
@[simp] theorem estopEffects_enc (s : State) : (estopEffects s).enc = s.enc := rfl
@[simp] theorem estopEffects_loco (s : State) : (estopEffects s).loco = stopAll s.par.estopTimerInit s.loco := rfl
@[simp] theorem estopEffects_acc (s : State) : (estopEffects s).acc = s.acc := rfl
@[simp] theorem estopEffects_pom (s : State) : (estopEffects s).pom = s.pom := rfl
@[simp] theorem estopEffects_svc (s : State) : (estopEffects s).svc = s.svc := rfl
@[simp] theorem estopEffects_power (s : State) : (estopEffects s).power = recoverTrip s.par.safeMA s.power := rfl
@[simp] theorem estopEffects_cb (s : State) : (estopEffects s).cb = s.cb := rfl
@[simp] theorem estopEffects_par (s : State) : (estopEffects s).par = s.par := rfl
@[simp] theorem estopEffects_agenda (s : State) : (estopEffects s).agenda = s.agenda := rfl

@[simp] theorem pomCount_shared (s : State) : (pomCount s).shared = s.shared := rfl
@[simp] theorem pomCount_tx (s : State) : (pomCount s).tx = s.tx := rfl
@[simp] theorem pomCount_enc (s : State) : (pomCount s).enc = s.enc := rfl
@[simp] theorem pomCount_loco (s : State) : (pomCount s).loco = s.loco := rfl
@[simp] theorem pomCount_acc (s : State) : (pomCount s).acc = s.acc := rfl
@[simp] theorem pomCount_pom (s : State) : (pomCount s).pom = { s.pom with
      budget := burstBudget s.pom.budget Config.pomRepeat
      state := if burstBudget s.pom.budget Config.pomRepeat = 0 then .idle else s.pom.state } := rfl
@[simp] theorem pomCount_svc (s : State) : (pomCount s).svc = s.svc := rfl
@[simp] theorem pomCount_power (s : State) : (pomCount s).power = s.power := rfl
@[simp] theorem pomCount_cb (s : State) : (pomCount s).cb = s.cb := rfl
@[simp] theorem pomCount_par (s : State) : (pomCount s).par = s.par := rfl
@[simp] theorem pomCount_agenda (s : State) : (pomCount s).agenda = s.agenda := rfl

@[simp] theorem withFree_shared (s : State) : (withFree s).shared = { s.shared with free := true } := rfl
@[simp] theorem withFree_tx (s : State) : (withFree s).tx = s.tx := rfl
@[simp] theorem withFree_enc (s : State) : (withFree s).enc = s.enc := rfl
@[simp] theorem withFree_loco (s : State) : (withFree s).loco = s.loco := rfl
@[simp] theorem withFree_acc (s : State) : (withFree s).acc = s.acc := rfl
@[simp] theorem withFree_pom (s : State) : (withFree s).pom = s.pom := rfl
@[simp] theorem withFree_svc (s : State) : (withFree s).svc = s.svc := rfl
@[simp] theorem withFree_power (s : State) : (withFree s).power = s.power := rfl
@[simp] theorem withFree_cb (s : State) : (withFree s).cb = s.cb := rfl
@[simp] theorem withFree_par (s : State) : (withFree s).par = s.par := rfl
@[simp] theorem withFree_agenda (s : State) : (withFree s).agenda = s.agenda := rfl

@[simp] theorem queueBit_shared (b : Bool) (s : State) : (queueBit s b).shared = s.shared := rfl
@[simp] theorem queueBit_tx (b : Bool) (s : State) : (queueBit s b).tx = { s.tx with q := b } := rfl
@[simp] theorem queueBit_enc (b : Bool) (s : State) : (queueBit s b).enc = s.enc := rfl
@[simp] theorem queueBit_loco (b : Bool) (s : State) : (queueBit s b).loco = s.loco := rfl
@[simp] theorem queueBit_acc (b : Bool) (s : State) : (queueBit s b).acc = s.acc := rfl
@[simp] theorem queueBit_pom (b : Bool) (s : State) : (queueBit s b).pom = s.pom := rfl
@[simp] theorem queueBit_svc (b : Bool) (s : State) : (queueBit s b).svc = s.svc := rfl
@[simp] theorem queueBit_power (b : Bool) (s : State) : (queueBit s b).power = s.power := rfl
@[simp] theorem queueBit_cb (b : Bool) (s : State) : (queueBit s b).cb = s.cb := rfl
@[simp] theorem queueBit_par (b : Bool) (s : State) : (queueBit s b).par = s.par := rfl
@[simp] theorem queueBit_agenda (b : Bool) (s : State) : (queueBit s b).agenda = s.agenda := rfl

@[simp] theorem startBit_shared (s : State) : (startBit s).shared = s.shared := rfl
@[simp] theorem startBit_tx (s : State) : (startBit s).tx = { s.tx with
      cur := s.tx.q, period := halfPeriod s.tx.q, pinA := true, pinB := false, half := true } := rfl
@[simp] theorem startBit_enc (s : State) : (startBit s).enc = s.enc := rfl
@[simp] theorem startBit_loco (s : State) : (startBit s).loco = s.loco := rfl
@[simp] theorem startBit_acc (s : State) : (startBit s).acc = s.acc := rfl
@[simp] theorem startBit_pom (s : State) : (startBit s).pom = s.pom := rfl
@[simp] theorem startBit_svc (s : State) : (startBit s).svc = s.svc := rfl
@[simp] theorem startBit_power (s : State) : (startBit s).power = s.power := rfl
@[simp] theorem startBit_cb (s : State) : (startBit s).cb = s.cb := rfl
@[simp] theorem startBit_par (s : State) : (startBit s).par = s.par := rfl
@[simp] theorem startBit_agenda (s : State) : (startBit s).agenda = s.agenda := rfl

@[simp] theorem secondHalf_shared (s : State) : (secondHalf s).shared = s.shared := rfl
@[simp] theorem secondHalf_tx (s : State) : (secondHalf s).tx = { s.tx with
      period := halfPeriod s.tx.cur, pinA := false, pinB := true, half := false } := rfl
@[simp] theorem secondHalf_enc (s : State) : (secondHalf s).enc = s.enc := rfl
@[simp] theorem secondHalf_loco (s : State) : (secondHalf s).loco = s.loco := rfl
@[simp] theorem secondHalf_acc (s : State) : (secondHalf s).acc = s.acc := rfl
@[simp] theorem secondHalf_pom (s : State) : (secondHalf s).pom = s.pom := rfl
@[simp] theorem secondHalf_svc (s : State) : (secondHalf s).svc = s.svc := rfl
@[simp] theorem secondHalf_power (s : State) : (secondHalf s).power = s.power := rfl
@[simp] theorem secondHalf_cb (s : State) : (secondHalf s).cb = s.cb := rfl
@[simp] theorem secondHalf_par (s : State) : (secondHalf s).par = s.par := rfl
@[simp] theorem secondHalf_agenda (s : State) : (secondHalf s).agenda = s.agenda := rfl
end Sys2Proof.Machine
end

