-- ==== Sys2Proof/Laws/Packets.lean ====
section
/-! SUPPORT. What a buffer holds after `PUBLISH`: the spec lemmas of `writeFrom`, `publish` and the claim,
cited instead of unfolding them. -/

namespace Sys2Proof.Machine

/-- A payload that `PUBLISH` takes (R172): two to five bytes. -/
def payloadLength (bs : List Byte) : Prop := 2 ≤ bs.length ∧ bs.length ≤ 5

theorem withChecksum_length (bs : List Byte) : (withChecksum bs).length = bs.length + 1 := by
  simp [withChecksum]

/-- The bytes written from index 0 on are the first bytes of the buffer. -/
theorem packetList_writeFrom (d : PacketBytes) (ws : List Byte) (h : ws.length ≤ 6) :
    (packetList (writeFrom d 0 ws)).take ws.length = ws := by
  rcases ws with _ | ⟨a, _ | ⟨b, _ | ⟨c, _ | ⟨e, _ | ⟨f, _ | ⟨g, _ | ⟨k, ws⟩⟩⟩⟩⟩⟩⟩ <;>
    first | rfl | (simp only [List.length_cons] at h; omega)

/-- The bytes above those written are as they were. -/
theorem packetByte_writeFrom (d : PacketBytes) (ws : List Byte) (h : ws.length ≤ 6) (k : Nat)
    (hk : ws.length ≤ k) : packetByte (writeFrom d 0 ws) k = packetByte d k := by
  rcases k with _ | _ | _ | _ | _ | _ | k <;>
  rcases ws with _ | ⟨a, _ | ⟨b, _ | ⟨c, _ | ⟨e, _ | ⟨f, _ | ⟨g, _ | ⟨q, ws⟩⟩⟩⟩⟩⟩⟩ <;>
    first | rfl | (simp only [List.length_cons, List.length_nil] at h hk; omega)

theorem len_toNat_of_payload {bs : List Byte} (h : bs.length ≤ 5) :
    (BitVec.ofNat 3 (bs.length + 1)).toNat = bs.length + 1 := by
  rw [BitVec.toNat_ofNat]; exact Nat.mod_eq_of_lt (by omega)

theorem publish_len_toNat {bs : List Byte} (h : bs.length ≤ 5) (lp : Bool) (s : State) :
    (publish bs lp s).shared.len.toNat = bs.length + 1 := by
  simpa using len_toNat_of_payload h

/-- The shared buffer after `PUBLISH` holds the payload with its checksum (R172, R103). -/
theorem sharedPacket_publish {bs : List Byte} (h : bs.length ≤ 5) (lp : Bool) (s : State) :
    sharedPacket (publish bs lp s) = withChecksum bs := by
  have hw : (bs ++ [xorBytes bs]).length = bs.length + 1 := by simp
  unfold sharedPacket withChecksum
  rw [publish_len_toNat h, ← hw, publish_shared]
  exact packetList_writeFrom _ _ (by omega)

/-- The shared packet depends on the record `shared` only. -/
theorem sharedPacket_congr {s t : State} (h : s.shared = t.shared) : sharedPacket s = sharedPacket t := by
  unfold sharedPacket; rw [h]

/-- A claim that publishes does what `Published` says, whatever happens to the other records after it. -/
theorem published_of_shared {bs : List Byte} (h : bs.length ≤ 5) (lp : Bool) (s t : State)
    (ht : t.shared = (publish bs lp (claim s)).shared) : Published bs lp s t where
  packet := (sharedPacket_congr ht).trans (sharedPacket_publish h lp (claim s))
  len := by rw [ht]; exact publish_len_toNat h lp (claim s)
  preamble := by rw [ht]; rfl
  above := fun k hk => by
    rw [ht]
    exact packetByte_writeFrom _ _ (by simp; omega) k (by simp; omega)
  free := by rw [ht]; rfl
  ticks := by rw [ht]; exact ⟨rfl, rfl⟩

theorem xorBytes_append (bs : List Byte) (b : Byte) : xorBytes (bs ++ [b]) = xorBytes bs ^^^ b := by
  induction bs with
  | nil => simp [xorBytes]
  | cons c cs ih =>
    have hc : ∀ ds, xorBytes (c :: ds) = c ^^^ xorBytes ds := fun _ => rfl
    rw [List.cons_append, hc, hc, ih, BitVec.xor_assoc]

/-- The bytes of a packet XOR to zero (R103). -/
theorem xorBytes_withChecksum (bs : List Byte) : xorBytes (withChecksum bs) = 0 := by
  simp [withChecksum, xorBytes_append]

end Sys2Proof.Machine
end

