-- ==== Sys2Proof/Laws/Decode.lean ====
section
/-! SUPPORT. The fields of a byte read back from the byte an encoder wrote: one lemma for each field, so that
`decode` of `encode` is computed by rewriting; then, for each reader of `Decode.lean`, that the bytes it
accepts are the instruction's own. -/

namespace Sys2Proof

section Short
variable (a : BitVec 7)

@[simp] theorem isShortByte_short : isShortByte (0#1 ++ a) = true :=
  (by decide : ∀ a : BitVec 7, isShortByte (0#1 ++ a) = true) a
@[simp] theorem isLongByte_short : isLongByte (0#1 ++ a) = false :=
  (by decide : ∀ a : BitVec 7, isLongByte (0#1 ++ a) = false) a
@[simp] theorem isAccByte_short : isAccByte (0#1 ++ a) = false :=
  (by decide : ∀ a : BitVec 7, isAccByte (0#1 ++ a) = false) a
@[simp] theorem shortField_short : shortField (0#1 ++ a) = a :=
  (by decide : ∀ a : BitVec 7, shortField (0#1 ++ a) = a) a
@[simp] theorem short_ne_idle : ((0#1 ++ a : Byte) = 0xFF#8) = False :=
  eq_false ((by decide : ∀ a : BitVec 7, (0#1 ++ a : Byte) ≠ 0xFF#8) a)

end Short

section Long
variable (x : BitVec 6)

@[simp] theorem isShortByte_long : isShortByte (3#2 ++ x) = false :=
  (by decide : ∀ x : BitVec 6, isShortByte (3#2 ++ x) = false) x
@[simp] theorem isLongByte_long : isLongByte (3#2 ++ x) = true :=
  (by decide : ∀ x : BitVec 6, isLongByte (3#2 ++ x) = true) x
@[simp] theorem isAccByte_long : isAccByte (3#2 ++ x) = false :=
  (by decide : ∀ x : BitVec 6, isAccByte (3#2 ++ x) = false) x

@[simp] theorem longField_long (a : BitVec 14) :
    longField (3#2 ++ a.extractLsb' 8 6) (a.extractLsb' 0 8) = a := by
  apply BitVec.eq_of_getLsbD_eq
  intro i hi
  simp only [longField, BitVec.getLsbD_append, BitVec.getLsbD_extractLsb']
  rcases Nat.lt_or_ge i 8 with h | h
  · simp [h]
  · have h6 : i - 8 < 6 := by omega
    have e : 8 + (i - 8) = i := by omega
    simp [Nat.not_lt.mpr h, h6, e]

end Long

section Accessory
variable (x : BitVec 6) (y : BitVec 3) (pair : BitVec 2) (r : Bool)

@[simp] theorem isShortByte_acc : isShortByte (2#2 ++ x) = false :=
  (by decide : ∀ x : BitVec 6, isShortByte (2#2 ++ x) = false) x
@[simp] theorem isLongByte_acc : isLongByte (2#2 ++ x) = false :=
  (by decide : ∀ x : BitVec 6, isLongByte (2#2 ++ x) = false) x
@[simp] theorem isAccByte_acc : isAccByte (2#2 ++ x) = true :=
  (by decide : ∀ x : BitVec 6, isAccByte (2#2 ++ x) = true) x

/-- The second accessory byte `1aaa1PPR`, with `aaa` given. -/
def accSecond (y : BitVec 3) (pair : BitVec 2) (r : Bool) : Byte :=
  1#1 ++ y ++ 1#1 ++ pair ++ BitVec.ofBool r

@[simp] theorem accSecond_bit7 : (accSecond y pair r).getLsbD 7 = true :=
  (by decide : ∀ y pair r, (accSecond y pair r).getLsbD 7 = true) y pair r
@[simp] theorem accSecond_bit3 : (accSecond y pair r).getLsbD 3 = true :=
  (by decide : ∀ y pair r, (accSecond y pair r).getLsbD 3 = true) y pair r
@[simp] theorem accSecond_bit0 : (accSecond y pair r).getLsbD 0 = r :=
  (by decide : ∀ y pair r, (accSecond y pair r).getLsbD 0 = r) y pair r
@[simp] theorem pairField_accSecond : pairField (accSecond y pair r) = pair :=
  (by decide : ∀ y pair r, pairField (accSecond y pair r) = pair) y pair r
theorem accSecond_high : (accSecond y pair r).extractLsb' 4 3 = y :=
  (by decide : ∀ y pair r, (accSecond y pair r).extractLsb' 4 3 = y) y pair r
theorem accFirst_low : (2#2 ++ x : Byte).extractLsb' 0 6 = x :=
  (by decide : ∀ x : BitVec 6, (2#2 ++ x : Byte).extractLsb' 0 6 = x) x

@[simp] theorem boardField_acc (board : BitVec 9) :
    boardField (2#2 ++ board.extractLsb' 0 6) (accSecond (~~~(board.extractLsb' 6 3)) pair r) = board := by
  rw [boardField, accSecond_high, accFirst_low, BitVec.not_not]
  apply BitVec.eq_of_getLsbD_eq
  intro i hi
  simp only [BitVec.getLsbD_append, BitVec.getLsbD_extractLsb']
  rcases Nat.lt_or_ge i 6 with h | h
  · simp [h]
  · have h3 : i - 6 < 3 := by omega
    have e : 6 + (i - 6) = i := by omega
    simp [Nat.not_lt.mpr h, h3, e]

theorem accBytes_eq (board : BitVec 9) : accBytes board pair r =
    [2#2 ++ board.extractLsb' 0 6, accSecond (~~~(board.extractLsb' 6 3)) pair r] := rfl

end Accessory

section CvAccess
variable (cc x : BitVec 2) (v : BitVec 10)

theorem cvField_of_low {op : Byte} (h : op.extractLsb' 0 2 = v.extractLsb' 8 2) :
    cvField op (v.extractLsb' 0 8) = v := by
  rw [cvField, h]
  apply BitVec.eq_of_getLsbD_eq
  intro i hi
  simp only [BitVec.getLsbD_append, BitVec.getLsbD_extractLsb']
  rcases Nat.lt_or_ge i 8 with h | h
  · simp [h]
  · have h2 : i - 8 < 2 := by omega
    have e : 8 + (i - 8) = i := by omega
    simp [Nat.not_lt.mpr h, h2, e]

@[simp] theorem pomOp_high : (14#4 ++ cc ++ x : Byte).extractLsb' 4 4 = 14#4 :=
  (by decide : ∀ cc x : BitVec 2, (14#4 ++ cc ++ x : Byte).extractLsb' 4 4 = 14#4) cc x
@[simp] theorem pomOp_cc : (14#4 ++ cc ++ x : Byte).extractLsb' 2 2 = cc :=
  (by decide : ∀ cc x : BitVec 2, (14#4 ++ cc ++ x : Byte).extractLsb' 2 2 = cc) cc x
theorem pomOp_low : (14#4 ++ cc ++ x : Byte).extractLsb' 0 2 = x :=
  (by decide : ∀ cc x : BitVec 2, (14#4 ++ cc ++ x : Byte).extractLsb' 0 2 = x) cc x
@[simp] theorem svcOp_high : (7#4 ++ cc ++ x : Byte).extractLsb' 4 4 = 7#4 :=
  (by decide : ∀ cc x : BitVec 2, (7#4 ++ cc ++ x : Byte).extractLsb' 4 4 = 7#4) cc x
@[simp] theorem svcOp_cc : (7#4 ++ cc ++ x : Byte).extractLsb' 2 2 = cc :=
  (by decide : ∀ cc x : BitVec 2, (7#4 ++ cc ++ x : Byte).extractLsb' 2 2 = cc) cc x
theorem svcOp_low : (7#4 ++ cc ++ x : Byte).extractLsb' 0 2 = x :=
  (by decide : ∀ cc x : BitVec 2, (7#4 ++ cc ++ x : Byte).extractLsb' 0 2 = x) cc x

@[simp] theorem cvField_pom : cvField (14#4 ++ cc ++ v.extractLsb' 8 2) (v.extractLsb' 0 8) = v :=
  cvField_of_low v (pomOp_low cc _)
@[simp] theorem cvField_svc : cvField (7#4 ++ cc ++ v.extractLsb' 8 2) (v.extractLsb' 0 8) = v :=
  cvField_of_low v (svcOp_low cc _)

end CvAccess

section BitBytes
variable (val : Bool) (pos : BitVec 3)

@[simp] theorem writeBitByte_high4 : (writeBitByte val pos).extractLsb' 4 4 = 15#4 :=
  (by decide : ∀ val pos, (writeBitByte val pos).extractLsb' 4 4 = 15#4) val pos
@[simp] theorem writeBitByte_high5 : ((writeBitByte val pos).extractLsb' 3 5 = 29#5) = False :=
  eq_false ((by decide : ∀ val pos, (writeBitByte val pos).extractLsb' 3 5 ≠ 29#5) val pos)
@[simp] theorem writeBitByte_val : (writeBitByte val pos).getLsbD 3 = val :=
  (by decide : ∀ val pos, (writeBitByte val pos).getLsbD 3 = val) val pos
@[simp] theorem writeBitByte_pos : (writeBitByte val pos).extractLsb' 0 3 = pos :=
  (by decide : ∀ val pos, (writeBitByte val pos).extractLsb' 0 3 = pos) val pos
@[simp] theorem verifyBitByte_high5 : (verifyBitByte pos).extractLsb' 3 5 = 29#5 :=
  (by decide : ∀ pos, (verifyBitByte pos).extractLsb' 3 5 = 29#5) pos
@[simp] theorem verifyBitByte_pos : (verifyBitByte pos).extractLsb' 0 3 = pos :=
  (by decide : ∀ pos, (verifyBitByte pos).extractLsb' 0 3 = pos) pos

end BitBytes

section Instructions
variable (d : Bool)

@[simp] theorem speed28Byte_high (code : BitVec 5) : (speed28Byte d code).extractLsb' 6 2 = 1#2 :=
  (by decide : ∀ d code, (speed28Byte d code).extractLsb' 6 2 = 1#2) d code
@[simp] theorem speed28Byte_dir (code : BitVec 5) : (speed28Byte d code).getLsbD 5 = d :=
  (by decide : ∀ d code, (speed28Byte d code).getLsbD 5 = d) d code
@[simp] theorem speed28Byte_code (code : BitVec 5) : (speed28Byte d code).extractLsb' 0 5 = code :=
  (by decide : ∀ d code, (speed28Byte d code).extractLsb' 0 5 = code) d code
@[simp] theorem speed128Byte_dir (code : BitVec 7) : (speed128Byte d code).getLsbD 7 = d :=
  (by decide +kernel : ∀ d code, (speed128Byte d code).getLsbD 7 = d) d code
@[simp] theorem speed128Byte_code (code : BitVec 7) : (speed128Byte d code).extractLsb' 0 7 = code :=
  (by decide +kernel : ∀ d code, (speed128Byte d code).extractLsb' 0 7 = code) d code
theorem speed128Byte_eq_one (code : BitVec 7) :
    (speed128Byte d code = 0x01#8) = (d = false ∧ code = 1#7) :=
  propext ((by decide +kernel : ∀ d code, speed128Byte d code = 0x01#8 ↔ d = false ∧ code = 1#7) d code)

@[simp] theorem fg1_prefix (f : BitVec 5) : (4#3 ++ f : Byte).extractLsb' 5 3 = 4#3 :=
  (by decide : ∀ f : BitVec 5, (4#3 ++ f : Byte).extractLsb' 5 3 = 4#3) f
@[simp] theorem fg1_bits (f : BitVec 5) : (4#3 ++ f : Byte).extractLsb' 0 5 = f :=
  (by decide : ∀ f : BitVec 5, (4#3 ++ f : Byte).extractLsb' 0 5 = f) f
@[simp] theorem fg2_not_fg1 (f : BitVec 4) : ((11#4 ++ f : Byte).extractLsb' 5 3 = 4#3) = False :=
  eq_false ((by decide : ∀ f : BitVec 4, (11#4 ++ f : Byte).extractLsb' 5 3 ≠ 4#3) f)
@[simp] theorem fg2_prefix (f : BitVec 4) : (11#4 ++ f : Byte).extractLsb' 4 4 = 11#4 :=
  (by decide : ∀ f : BitVec 4, (11#4 ++ f : Byte).extractLsb' 4 4 = 11#4) f
@[simp] theorem fg2_bits (f : BitVec 4) : (11#4 ++ f : Byte).extractLsb' 0 4 = f :=
  (by decide : ∀ f : BitVec 4, (11#4 ++ f : Byte).extractLsb' 0 4 = f) f
@[simp] theorem fg3_not_fg1 (f : BitVec 4) : ((10#4 ++ f : Byte).extractLsb' 5 3 = 4#3) = False :=
  eq_false ((by decide : ∀ f : BitVec 4, (10#4 ++ f : Byte).extractLsb' 5 3 ≠ 4#3) f)
@[simp] theorem fg3_prefix (f : BitVec 4) : (10#4 ++ f : Byte).extractLsb' 4 4 = 10#4 :=
  (by decide : ∀ f : BitVec 4, (10#4 ++ f : Byte).extractLsb' 4 4 = 10#4) f
@[simp] theorem fg3_bits (f : BitVec 4) : (10#4 ++ f : Byte).extractLsb' 0 4 = f :=
  (by decide : ∀ f : BitVec 4, (10#4 ++ f : Byte).extractLsb' 0 4 = f) f

@[simp] theorem regwr_high (r : BitVec 2) : (30#6 ++ r : Byte).extractLsb' 4 4 = 7#4 :=
  (by decide : ∀ r : BitVec 2, (30#6 ++ r : Byte).extractLsb' 4 4 = 7#4) r
@[simp] theorem regwr_bit3 (r : BitVec 2) : (30#6 ++ r : Byte).getLsbD 3 = true :=
  (by decide : ∀ r : BitVec 2, (30#6 ++ r : Byte).getLsbD 3 = true) r
@[simp] theorem regwr_bit2 (r : BitVec 2) : (30#6 ++ r : Byte).getLsbD 2 = false :=
  (by decide : ∀ r : BitVec 2, (30#6 ++ r : Byte).getLsbD 2 = false) r
@[simp] theorem regwr_low (r : BitVec 2) : (30#6 ++ r : Byte).extractLsb' 0 2 = r :=
  (by decide : ∀ r : BitVec 2, (30#6 ++ r : Byte).extractLsb' 0 2 = r) r
@[simp] theorem regwr_not_page (r : BitVec 2) : ((30#6 ++ r : Byte) = 0x7D#8) = False :=
  eq_false ((by decide : ∀ r : BitVec 2, (30#6 ++ r : Byte) ≠ 0x7D#8) r)
@[simp] theorem regwr_not_reset (r : BitVec 2) : ((30#6 ++ r : Byte) = 0x00#8) = False :=
  eq_false ((by decide : ∀ r : BitVec 2, (30#6 ++ r : Byte) ≠ 0x00#8) r)

end Instructions

section Readers

/-- Reading the address of a short address byte loses nothing (R71). -/
theorem shortBytes_field {b : Byte} (h : isShortByte b = true) : shortBytes (shortField b) = [b] := by
  revert b; decide +kernel

theorem longFirst {b : Byte} (h : isLongByte b = true) : 3#2 ++ b.extractLsb' 0 6 = b := by
  revert b; decide +kernel

theorem accFirst {b : Byte} (h : isAccByte b = true) : 2#2 ++ b.extractLsb' 0 6 = b := by
  revert b; decide +kernel

theorem append_high {n : Nat} (x : BitVec n) (y : Byte) : (x ++ y).extractLsb' 8 n = x := by
  apply BitVec.eq_of_getLsbD_eq
  intro i hi
  simp [BitVec.getLsbD_append, hi]

theorem append_low {n : Nat} (x : BitVec n) (y : Byte) : (x ++ y).extractLsb' 0 8 = y := by
  apply BitVec.eq_of_getLsbD_eq
  intro i hi
  simp [BitVec.getLsbD_append, hi]

/-- Reading the address of two long address bytes loses nothing (R72). -/
theorem longBytes_field {b0 : Byte} (b1 : Byte) (h : isLongByte b0 = true) :
    longBytes (longField b0 b1) = [b0, b1] := by
  simp only [longBytes, longField, append_high, append_low, longFirst h]

theorem board_low (x : BitVec 3) (y : BitVec 6) : (x ++ y : BitVec 9).extractLsb' 0 6 = y := by
  revert x y; decide +kernel

theorem board_high (x : BitVec 3) (y : BitVec 6) : (x ++ y : BitVec 9).extractLsb' 6 3 = x := by
  revert x y; decide +kernel

theorem accSecond_fields {b : Byte} (h7 : b.getLsbD 7 = true) (h3 : b.getLsbD 3 = true) :
    accSecond (b.extractLsb' 4 3) (pairField b) (b.getLsbD 0) = b := by
  revert b; decide +kernel

/-- Reading board, pair and output select of two accessory address bytes loses nothing (R114). -/
theorem accBytes_fields {b0 b1 : Byte} (h : isAccByte b0 = true) (h7 : b1.getLsbD 7 = true)
    (h3 : b1.getLsbD 3 = true) :
    accBytes (boardField b0 b1) (pairField b1) (b1.getLsbD 0) = [b0, b1] := by
  rw [accBytes_eq, boardField, board_low, board_high, BitVec.not_not, accFirst h, accSecond_fields h7 h3]

theorem speed28_fields {b : Byte} (h : b.extractLsb' 6 2 = 1#2) :
    speed28Byte (b.getLsbD 5) (b.extractLsb' 0 5) = b := by
  revert b; decide +kernel

theorem speed128_fields (b : Byte) :
    speed128Byte (b.getLsbD 7) (b.extractLsb' 0 7) = b := by
  revert b; decide +kernel

theorem fg1_fields {b : Byte} (h : b.extractLsb' 5 3 = 4#3) : 4#3 ++ b.extractLsb' 0 5 = b := by
  revert b; decide +kernel

theorem fg2_fields {b : Byte} (h : b.extractLsb' 4 4 = 11#4) : 11#4 ++ b.extractLsb' 0 4 = b := by
  revert b; decide +kernel

theorem fg3_fields {b : Byte} (h : b.extractLsb' 4 4 = 10#4) : 10#4 ++ b.extractLsb' 0 4 = b := by
  revert b; decide +kernel

/-- An instruction byte is its prefix, its operation and the high CV bits (R104, R110). -/
theorem op_fields {b : Byte} {hi : BitVec 4} {cc : BitVec 2} (h : b.extractLsb' 4 4 = hi)
    (hc : b.extractLsb' 2 2 = cc) : hi ++ cc ++ b.extractLsb' 0 2 = b := by
  subst h hc; revert b; decide +kernel

theorem pomCv_fields {op : Byte} (lo : Byte) {cc : BitVec 2} (h : op.extractLsb' 4 4 = 14#4)
    (hc : op.extractLsb' 2 2 = cc) : pomCvBytes cc (cvField op lo) = [op, lo] := by
  simp only [pomCvBytes, cvField, append_high, append_low, op_fields h hc]

theorem svcCv_fields {op : Byte} (lo : Byte) {cc : BitVec 2} (h : op.extractLsb' 4 4 = 7#4)
    (hc : op.extractLsb' 2 2 = cc) : svcCvBytes cc (cvField op lo) = [op, lo] := by
  simp only [svcCvBytes, cvField, append_high, append_low, op_fields h hc]

theorem writeBit_fields {b : Byte} (h : b.extractLsb' 4 4 = 15#4) :
    writeBitByte (b.getLsbD 3) (b.extractLsb' 0 3) = b := by
  revert b; decide +kernel

theorem verifyBit_fields {b : Byte} (h : b.extractLsb' 3 5 = 29#5) :
    verifyBitByte (b.extractLsb' 0 3) = b := by
  revert b; decide +kernel

theorem regwr_fields {b : Byte} (h : b.extractLsb' 4 4 = 7#4) (h3 : b.getLsbD 3 = true)
    (h2 : b.getLsbD 2 = false) : 30#6 ++ b.extractLsb' 0 2 = b := by
  revert b; decide +kernel

/-- A byte read as a 28-step instruction is that instruction's own byte (R104, R106, R202). -/
theorem read28S_ok {a : BitVec 7} {b : Byte} {i : Instr} (h : readSpeed28S a b = .ok i) :
    encode i = shortBytes a ++ [b] ∧ i.wf = true ∧ i.family = .loco := by
  unfold readSpeed28S at h
  split at h <;> rename_i h6
  · split at h <;> rename_i h5 <;> cases h
    · exact ⟨by rw [encode, ← h5, speed28_fields h6], rfl, rfl⟩
    · exact ⟨by rw [encode, speed28_fields h6], by simpa [Instr.wf, speed28Free] using h5, rfl⟩
  · cases h

/-- The same for a long address. -/
theorem read28L_ok {a : BitVec 14} {b : Byte} {i : Instr} (h : readSpeed28L a b = .ok i) :
    encode i = longBytes a ++ [b] ∧ i.wf = true ∧ i.family = .loco := by
  unfold readSpeed28L at h
  split at h <;> rename_i h6
  · split at h <;> rename_i h5 <;> cases h
    · exact ⟨by rw [encode, ← h5, speed28_fields h6], rfl, rfl⟩
    · exact ⟨by rw [encode, speed28_fields h6], by simpa [Instr.wf, speed28Free] using h5, rfl⟩
  · cases h

theorem free128 {b : Byte} (h : ¬ b = 0x01#8) : speed128Free (b.getLsbD 7) (b.extractLsb' 0 7) = true := by
  revert b; decide +kernel

/-- A byte read as a 128-step speed byte is that instruction's own byte (R107, R203). -/
theorem read128S_ok {a : BitVec 7} {b : Byte} {i : Instr} (h : readSpeed128S a b = .ok i) :
    encode i = shortBytes a ++ [0x3F#8, b] ∧ i.wf = true ∧ i.family = .loco := by
  unfold readSpeed128S at h
  split at h <;> rename_i h1 <;> cases h
  · exact ⟨by rw [encode, h1], rfl, rfl⟩
  · exact ⟨by rw [encode, speed128_fields], free128 h1, rfl⟩

/-- The same for a long address. -/
theorem read128L_ok {a : BitVec 14} {b : Byte} {i : Instr} (h : readSpeed128L a b = .ok i) :
    encode i = longBytes a ++ [0x3F#8, b] ∧ i.wf = true ∧ i.family = .loco := by
  unfold readSpeed128L at h
  split at h <;> rename_i h1 <;> cases h
  · exact ⟨by rw [encode, h1], rfl, rfl⟩
  · exact ⟨by rw [encode, speed128_fields], free128 h1, rfl⟩

/-- A byte read as a function-group instruction is that instruction's own byte (R108). -/
theorem readFnS_ok {a : BitVec 7} {b : Byte} {i : Instr} (h : readFunctionS a b = .ok i) :
    encode i = shortBytes a ++ [b] ∧ i.wf = true ∧ i.family = .function := by
  unfold readFunctionS at h
  (repeat' split at h) <;> cases h <;> simp_all [encode, Instr.wf, Instr.family, fg1_fields, fg2_fields, fg3_fields]

/-- The same for a long address. -/
theorem readFnL_ok {a : BitVec 14} {b : Byte} {i : Instr} (h : readFunctionL a b = .ok i) :
    encode i = longBytes a ++ [b] ∧ i.wf = true ∧ i.family = .function := by
  unfold readFunctionL at h
  (repeat' split at h) <;> cases h <;> simp_all [encode, Instr.wf, Instr.family, fg1_fields, fg2_fields, fg3_fields]

/-- The three bytes of a CV-access operation of the main track (R111, R112, R116). -/
def pomOpBytes (v : BitVec 10) : PomOp → List Byte
  | .byte d => pomCvBytes 3#2 v ++ [d]
  | .bit val pos => pomCvBytes 2#2 v ++ [writeBitByte val pos]

/-- Three bytes read as a CV-access operation are that operation's own bytes. -/
theorem readPomOp_ok {op lo data : Byte} {p : PomOp} (h : readPomOp op data = .ok p) :
    pomOpBytes (cvField op lo) p = [op, lo, data] := by
  unfold readPomOp at h
  (repeat' split at h) <;> cases h
  all_goals simp_all [pomOpBytes, pomCv_fields, writeBit_fields, -BitVec.getLsbD_eq_getElem]

/-- Bytes read as a POM packet to a short address are that packet's own. -/
theorem readPomS_ok {a : BitVec 7} {op lo data : Byte} {i : Instr} (h : readPomS a op lo data = .ok i) :
    encode i = shortBytes a ++ [op, lo, data] ∧ i.wf = true ∧ i.family = .pom := by
  unfold readPomS at h
  split at h <;> rename_i h1 <;> cases h <;>
   exact ⟨by rw [← readPomOp_ok h1]; simp [encode, pomOpBytes], rfl, rfl⟩

/-- The same for a long address. -/
theorem readPomL_ok {a : BitVec 14} {op lo data : Byte} {i : Instr} (h : readPomL a op lo data = .ok i) :
    encode i = longBytes a ++ [op, lo, data] ∧ i.wf = true ∧ i.family = .pom := by
  unfold readPomL at h
  split at h <;> rename_i h1 <;> cases h <;>
   exact ⟨by rw [← readPomOp_ok h1]; simp [encode, pomOpBytes], rfl, rfl⟩

/-- The same for an accessory address (R115). -/
theorem readPomA_ok {b0 b1 op lo data : Byte} {i : Instr} (h0 : isAccByte b0 = true)
    (h : readPomA b0 b1 op lo data = .ok i) :
    encode i = [b0, b1, op, lo, data] ∧ i.wf = true ∧ i.family = .pom := by
  unfold readPomA at h
  split at h <;> rename_i h7
  · split at h <;> rename_i h3
    · split at h <;> rename_i hr
      · cases h
      · have e := accBytes_fields h0 h7 h3
        rw [Bool.not_eq_true] at hr
        rw [hr] at e
        split at h <;> rename_i h1 <;> cases h <;>
          exact ⟨by
            have hb := readPomOp_ok (lo := lo) h1
            simp only [pomOpBytes] at hb
            simp [encode, e, hb], rfl, rfl⟩
    · cases h
  · cases h

end Readers

end Sys2Proof
end

