-- ==== Sys2Proof/Laws/Operands.lean ====
section
/-! SUPPORT. The bytes the builders of `Machine/Operands.lean` compute, written with shifts and masks as in the
spec's pseudocode, are the bytes `encode` writes from the opcode table's bit patterns. -/

namespace Sys2Proof.Machine

/-- Two bytes with the same eight bits are equal. -/
theorem byte_ext {x y : Byte} (h : ∀ i : Fin 8, x.getLsbD i = y.getLsbD i) : x = y :=
  BitVec.eq_of_getLsbD_eq fun i hi => h ⟨i, hi⟩

/-- `ADDR_S` writes the short address byte of the opcode table (R191, R101). -/
theorem addrShort_eq (a : BitVec 14) : addrShort a = shortBytes (a.setWidth 7) := by
  have h : (a.setWidth 8 &&& 0x7F : Byte) = (a.setWidth 7).setWidth 8 :=
    byte_ext fun i => by fin_cases i <;> simp
  have e : ∀ x : BitVec 7, (x.setWidth 8 : Byte) = 0#1 ++ x := by decide +kernel
  rw [addrShort, h, e, shortBytes]

/-- Taking the low byte of a value, in two spellings. -/
theorem low_byte {n : Nat} (x : BitVec n) : (x.setWidth 8 : Byte) = x.extractLsb' 0 8 :=
  byte_ext fun i => by simp [i.isLt]

/-- `ADDR_L` writes the long address bytes of the opcode table (R192, R101). -/
theorem addrLong_eq (a : BitVec 14) : addrLong a = longBytes a := by
  have h : (a >>> 8).setWidth 8 = (a.extractLsb' 8 6).setWidth 8 :=
    byte_ext fun i => by fin_cases i <;> simp
  have e : ∀ x : BitVec 6, (0xC0#8 ||| x.setWidth 8 : Byte) = 3#2 ++ x := by decide +kernel
  rw [addrLong, h, e, longBytes, low_byte]

/-- The accessory address bytes are those of the opcode table, board `raw div 4` and pair `raw mod 4` (R114). -/
theorem accAddr_eq (raw : BitVec 11) (r : Bool) :
    accAddr raw r = accBytes (raw.extractLsb' 2 9) (raw.extractLsb' 0 2) r := by
  have h0 : ((raw >>> 2 &&& 0x3F).setWidth 8 : Byte) = ((raw.extractLsb' 2 9).extractLsb' 0 6).setWidth 8 :=
    byte_ext fun i => by fin_cases i <;> simp
  have h1 : ((~~~(raw >>> 2 >>> 6) &&& 7).setWidth 8 : Byte)
      = (~~~((raw.extractLsb' 2 9).extractLsb' 6 3)).setWidth 8 :=
    byte_ext fun i => by fin_cases i <;> simp
  have h2 : ((raw &&& 3).setWidth 8 : Byte) = (raw.extractLsb' 0 2).setWidth 8 :=
    byte_ext fun i => by fin_cases i <;> simp
  have e0 : ∀ x : BitVec 6, (0x80#8 ||| x.setWidth 8 : Byte) = 2#2 ++ x := by decide +kernel
  have e1 : ∀ (y : BitVec 3) (p : BitVec 2) (r : Bool),
      (0x80#8 ||| (y.setWidth 8 <<< 4) ||| (1#8 <<< 3) ||| (p.setWidth 8 <<< 1) ||| bitByte r : Byte)
        = accSecond y p r := by decide +kernel
  simp only [accAddr]
  rw [accBytes_eq, h0, h1, h2, e0, e1]

/-- The two high bits of `cv - 1` as a byte. -/
theorem cvHigh (v : BitVec 10) : ((v >>> 8).setWidth 8 : Byte) = (v.extractLsb' 8 2).setWidth 8 :=
  byte_ext fun i => by fin_cases i <;> simp

/-- The CV bytes of each operation are those of the opcode table (R111, R116). -/
theorem cvBytes_pomByte (v : BitVec 10) : cvBytes 0xEC#8 v = pomCvBytes 3#2 v := by
  have e : ∀ x : BitVec 2, (0xEC#8 ||| x.setWidth 8 : Byte) = 14#4 ++ 3#2 ++ x := by decide +kernel
  rw [cvBytes, cvHigh, e, low_byte, pomCvBytes]

theorem cvBytes_pomBit (v : BitVec 10) : cvBytes 0xE8#8 v = pomCvBytes 2#2 v := by
  have e : ∀ x : BitVec 2, (0xE8#8 ||| x.setWidth 8 : Byte) = 14#4 ++ 2#2 ++ x := by decide +kernel
  rw [cvBytes, cvHigh, e, low_byte, pomCvBytes]

theorem cvBytes_svcWrite (v : BitVec 10) : cvBytes 0x7C#8 v = svcCvBytes 3#2 v := by
  have e : ∀ x : BitVec 2, (0x7C#8 ||| x.setWidth 8 : Byte) = 7#4 ++ 3#2 ++ x := by decide +kernel
  rw [cvBytes, cvHigh, e, low_byte, svcCvBytes]

theorem cvBytes_svcBit (v : BitVec 10) : cvBytes 0x78#8 v = svcCvBytes 2#2 v := by
  have e : ∀ x : BitVec 2, (0x78#8 ||| x.setWidth 8 : Byte) = 7#4 ++ 2#2 ++ x := by decide +kernel
  rw [cvBytes, cvHigh, e, low_byte, svcCvBytes]

theorem cvBytes_svcVerify (v : BitVec 10) : cvBytes 0x74#8 v = svcCvBytes 1#2 v := by
  have e : ∀ x : BitVec 2, (0x74#8 ||| x.setWidth 8 : Byte) = 7#4 ++ 1#2 ++ x := by decide +kernel
  rw [cvBytes, cvHigh, e, low_byte, svcCvBytes]

/-- The 28-step instruction byte (R200). -/
theorem speed28_code (d : Bool) (c : BitVec 5) :
    (0x40#8 ||| (bitByte d <<< 5) ||| c.setWidth 8 : Byte) = speed28Byte d c := by
  revert d c; decide +kernel

/-- The emergency stop keeps the direction and forces code 1 (R198, R202). -/
theorem speed28_stop (d : Bool) (c : BitVec 5) :
    (speed28Byte d c &&& 0x60) ||| 0x01 = speed28Byte d 1#5 := by
  revert d c; decide +kernel

/-- The 128-step speed byte (R201). -/
theorem speed128_code (d : Bool) (c : BitVec 7) :
    ((bitByte d <<< 7) ||| c.setWidth 8 : Byte) = speed128Byte d c := by
  revert d c; decide +kernel

/-- Function group one, F0 above F4 to F1 (R206, R108). -/
theorem functionGroup1_eq (m : BitVec 16) :
    functionGroup1 m = 4#3 ++ (m.extractLsb' 0 1 ++ m.extractLsb' 1 4 : BitVec 5) := by
  have h : ((m >>> 1 &&& 0x0F).setWidth 8 : Byte) = (m.extractLsb' 1 4).setWidth 8 :=
    byte_ext fun i => by fin_cases i <;> simp
  have h0 : bitByte (m.getLsbD 0) = (m.extractLsb' 0 1).setWidth 8 :=
    byte_ext fun i => by cases hm : m.getLsbD 0 <;> fin_cases i <;> simp_all [bitByte]
  have e : ∀ (x : BitVec 1) (y : BitVec 4),
      (0x80#8 ||| (x.setWidth 8 <<< 4) ||| y.setWidth 8 : Byte) = 4#3 ++ (x ++ y : BitVec 5) := by
    decide +kernel
  rw [functionGroup1, h, h0, e]

/-- Function group two (R207, R108). -/
theorem functionGroup2_eq (m : BitVec 16) : functionGroup2 m = 11#4 ++ m.extractLsb' 5 4 := by
  have h : ((m >>> 5 &&& 0x0F).setWidth 8 : Byte) = (m.extractLsb' 5 4).setWidth 8 :=
    byte_ext fun i => by fin_cases i <;> simp
  have e : ∀ x : BitVec 4, (0xB0#8 ||| x.setWidth 8 : Byte) = 11#4 ++ x := by decide +kernel
  rw [functionGroup2, h, e]

/-- Function group three (R208, R108). -/
theorem functionGroup3_eq (m : BitVec 16) : functionGroup3 m = 10#4 ++ m.extractLsb' 9 4 := by
  have h : ((m >>> 9 &&& 0x0F).setWidth 8 : Byte) = (m.extractLsb' 9 4).setWidth 8 :=
    byte_ext fun i => by fin_cases i <;> simp
  have e : ∀ x : BitVec 4, (0xA0#8 ||| x.setWidth 8 : Byte) = 10#4 ++ x := by decide +kernel
  rw [functionGroup3, h, e]

/-- The bit-write data byte (R112, R234). -/
theorem pomBit_byte (v : Bool) (p : BitVec 3) :
    (0xF0#8 ||| (bitByte v <<< 3) ||| p.setWidth 8 : Byte) = writeBitByte v p := by
  revert v p; decide +kernel

/-- The bit-verify data byte (R112, R256). -/
theorem verifyBit_byte (p : BitVec 3) : (0xE8#8 ||| p.setWidth 8 : Byte) = verifyBitByte p := by
  revert p; decide +kernel

/-- The register-write instruction byte (R113, R253). -/
theorem regwr_byte (r : BitVec 2) : (0x78#8 ||| r.setWidth 8 : Byte) = 30#6 ++ r := by
  revert r; decide +kernel

/-- The wire field of a CV number is `(cv - 1) mod 1024` (R116). -/
theorem cvWire_toNat (cv : BitVec 11) : (cvWire cv).toNat = (cv.toNat + 1023) % 1024 := by
  have := cv.isLt
  simp [cvWire]; omega

/-- The board of the raw accessory address `(addr + 3) mod 2048` (R114). -/
theorem raw_board (a : BitVec 11) : ((a + 3).extractLsb' 2 9).toNat = (a.toNat + 3) % 2048 / 4 := by
  simp [BitVec.extractLsb'_toNat, Nat.shiftRight_eq_div_pow]; omega

/-- The pair of the raw accessory address (R114). -/
theorem raw_pair (a : BitVec 11) : ((a + 3).extractLsb' 0 2).toNat = (a.toNat + 3) % 4 := by
  simp [BitVec.extractLsb'_toNat]

/-- The address bytes of a slot, in its long or short form (R191, R192). -/
theorem locoAddr_eq (l : Loco) :
    locoAddr l = if l.useLong then longBytes l.addr else shortBytes (l.addr.setWidth 7) := by
  simp only [locoAddr, addrLong_eq, addrShort_eq]

/-- The direction bit while nudging is the parity of the counter (R195). -/
theorem directionBit_eq (l : Loco) :
    directionBit l = if l.nudge = 0 then l.forward else decide (l.nudge.toNat % 2 = 1) := by
  unfold directionBit
  split
  · rfl
  · simp [BitVec.getLsbD, Nat.testBit_zero]

/-- Braking halves the step, rounded down (R197). -/
theorem brakedStep_eq (l : Loco) :
    brakedStep l = if l.brake then BitVec.ofNat 8 (l.speedStep.toNat / 2) else l.speedStep := by
  unfold brakedStep
  split
  · apply BitVec.eq_of_toNat_eq
    have := l.speedStep.isLt
    simp [Nat.shiftRight_eq_div_pow]; omega
  · rfl

end Sys2Proof.Machine
end

