-- ==== Sys2Proof/Laws/Encoder.lean ====
section
/-! SUPPORT. What the encoder's shared operations do, said once: the meanings by family, the two halves of BURST,
the exit actions, the choice of the family, and an inversion of `encStep`. -/

namespace Sys2Proof.Machine

/-! ## Packets -/

/-- No packet has more than five payload bytes (R101). -/
theorem encode_length_le (i : Instr) : (encode i).length ≤ 5 := by
  cases i <;> simp [encode, shortBytes, longBytes, accBytes, pomCvBytes, svcCvBytes]

/-- A packet the encoder builds is written under its own row. -/
theorem built_wf {i : Instr} (h : built i = true) : i.wf = true := by
  unfold built at h; exact (Bool.and_eq_true _ _ ▸ h).1

/-- The long preamble goes with the Service family (R118). -/
theorem longPreamble_eq (i : Instr) : i.longPreamble = decide (i.family = .service) := by
  unfold Instr.longPreamble; cases i.family <;> rfl

/-- The bytes of any packet but `SVC.WRBIT` are the bytes of a packet the encoder builds: a speed packet with the
stop code is the emergency stop (R202, R203). -/
theorem exists_built (i : Instr) (h : ∀ v b p, i ≠ .svcWrbit v b p) :
    ∃ j, built j = true ∧ encode j = encode i ∧ j.family = i.family := by
  cases i
  case spd28S a d code =>
    by_cases hc : code = 1#5
    · exact ⟨.estop28S a d, rfl, by rw [hc]; rfl, rfl⟩
    · exact ⟨_, by simpa [built, Instr.wf, speed28Free] using hc, rfl, rfl⟩
  case spd28L a d code =>
    by_cases hc : code = 1#5
    · exact ⟨.estop28L a d, rfl, by rw [hc]; rfl, rfl⟩
    · exact ⟨_, by simpa [built, Instr.wf, speed28Free] using hc, rfl, rfl⟩
  case spd128S a d code =>
    by_cases hc : d = false ∧ code = 1#7
    · exact ⟨.estop128S a, rfl, by rw [hc.1, hc.2]; rfl, rfl⟩
    · refine ⟨.spd128S a d code, ?_, rfl, rfl⟩
      simp only [built, Instr.wf, speed128Free, Bool.and_true]
      clear h; revert hc; revert d code; decide +kernel
  case spd128L a d code =>
    by_cases hc : d = false ∧ code = 1#7
    · exact ⟨.estop128L a, rfl, by rw [hc.1, hc.2]; rfl, rfl⟩
    · refine ⟨.spd128L a d code, ?_, rfl, rfl⟩
      simp only [built, Instr.wf, speed128Free, Bool.and_true]
      clear h; revert hc; revert d code; decide +kernel
  case svcWrbit v b p => exact absurd rfl (h v b p)
  all_goals exact ⟨_, rfl, rfl, rfl⟩

/-! ## The meanings by family -/

/-- Every packet of the Loco family but `IDLE` is one claim of `ENC_LOCO` (R209). -/
theorem exec_loco {i : Instr} (h : i.family = .loco) (hi : i ≠ .idle) (s : State) :
    exec i s = locoPacket (encode i) s := by
  cases i <;> first | (cases h; done) | exact absurd rfl hi | rfl

/-- Every function-group packet is one claim of `ENC_FUNCTION` (R210). -/
theorem exec_function {i : Instr} (h : i.family = .function) (s : State) :
    exec i s = functionPacket (encode i) s := by
  cases i <;> first | (cases h; done) | rfl

/-- Every POM packet is one claim of `ENC_POM` (R235). -/
theorem exec_pom {i : Instr} (h : i.family = .pom) (s : State) :
    exec i s = pomPacket (encode i) s := by
  cases i <;> first | (cases h; done) | rfl

/-- Every service packet the encoder builds is one claim of `ENC_SERVICE` (R260). -/
theorem exec_service {i : Instr} (h : i.family = .service) (hb : built i = true) (s : State) :
    exec i s = svcPacket (encode i) s := by
  cases i <;> first | cases h; done | (simp [built] at hb; done) | rfl

/-! ## The indices -/

/-- The function group wraps after 2 (R205). -/
theorem group_wrap (fg : Fin 3) : (fg + 1 = 0) = (fg = 2) := by
  revert fg; decide

/-- A round-robin index stays below the capacity (R126 g). -/
theorem nextIndex_lt {i n : Nat} (h : i < n) : nextIndex i n < n := Nat.mod_lt _ (by omega)

/-- The end of `ENC_LOCO` touches the table and the encoder's own record only (R196). -/
theorem finishLoco_frame (l : Loco) (s : State) :
    finishLoco l s = { s with loco := (finishLoco l s).loco, enc := (finishLoco l s).enc } := by
  unfold finishLoco; split <;> rfl

/-! ## BURST -/

/-- The budget after one call of BURST (R174). -/
theorem burstBudget_eq (b n : BitVec 4) : burstBudget b n = if b = 0 then n - 1 else b - 1 := by
  unfold burstBudget; split <;> rfl

/-- A call that completes the burst. -/
theorem burstBudget_last (b n : BitVec 4) (h : b = 1 ∨ (b = 0 ∧ n = 1)) : burstBudget b n = 0 := by
  rcases h with rfl | ⟨rfl, rfl⟩
  · unfold burstBudget; rw [if_neg (by decide)]; decide
  · decide

/-- A call inside a burst. -/
theorem burstBudget_more (b n : BitVec 4) (h : b ≠ 0) (h' : b ≠ 1) : burstBudget b n ≠ 0 := by
  unfold burstBudget; rw [if_neg h]; revert h h'; revert b; decide

/-- The first call of a burst of more than one packet. -/
theorem burstBudget_first (n : BitVec 4) (h : n ≠ 1) : burstBudget 0 n ≠ 0 := by
  revert n; decide

/-- The building half publishes when no burst runs. -/
theorem svcBuild_first {bs : List Byte} {s : State} (h : s.svc.budget = 0) :
    svcBuild bs s = publish bs true s := if_pos h

/-- The building half leaves a running burst's packet in place. -/
theorem svcBuild_running {bs : List Byte} {s : State} (h : s.svc.budget ≠ 0) : svcBuild bs s = s := if_neg h

/-- The building half touches the shared buffer only. -/
theorem svcBuild_frame (bs : List Byte) (s : State) :
    svcBuild bs s = { s with shared := (svcBuild bs s).shared } := by
  unfold svcBuild; split <;> rfl

@[simp] theorem svcBuild_svc (bs : List Byte) (s : State) : (svcBuild bs s).svc = s.svc := by
  unfold svcBuild; split <;> simp
@[simp] theorem svcBuild_par (bs : List Byte) (s : State) : (svcBuild bs s).par = s.par := by
  unfold svcBuild; split <;> simp
@[simp] theorem svcBuild_power (bs : List Byte) (s : State) : (svcBuild bs s).power = s.power := by
  unfold svcBuild; split <;> simp

/-- The POM building half touches the shared buffer only. -/
theorem pomBuild_frame (bs : List Byte) (s : State) :
    pomBuild bs s = { s with shared := (pomBuild bs s).shared } := by
  unfold pomBuild; split <;> rfl

/-- The counting half at the end of a burst runs the exit action (R260). -/
theorem svcCount_last {s : State} (h : burstBudget s.svc.budget (svcRepeat s.par s.svc.state) = 0) :
    svcCount s = svcExit (setSvc s { s.svc with budget := 0 }) := by
  simp only [svcCount, h]; rfl

/-- The counting half inside a burst moves the budget only. -/
theorem svcCount_more {s : State} (h : burstBudget s.svc.budget (svcRepeat s.par s.svc.state) ≠ 0) :
    svcCount s = setSvc s { s.svc with
      budget := burstBudget s.svc.budget (svcRepeat s.par s.svc.state) } := by
  simp only [svcCount, h]; rfl

/-- A state without an exit action only moves to its successor (R258). -/
theorem svcExit_plain {s : State} (h1 : s.svc.state ≠ .rdVerify) (h2 : s.svc.state ≠ .rdFinal) :
    svcExit s = setSvc s { s.svc with state := svcSuccessor s.svc.state } := by
  unfold svcExit; split <;> simp_all

/-- An exit action touches the sequencer, the detector's fields and the callback port only (R258, R265, R266). -/
theorem svcExit_frame (s : State) :
    svcExit s = { s with
      svc := (svcExit s).svc
      power := { s.power with
        ackBaseMA := (svcExit s).power.ackBaseMA
        ackFlag := (svcExit s).power.ackFlag
        sensorMode := (svcExit s).power.sensorMode }
      cb := (svcExit s).cb } := by
  unfold svcExit; split
  · rfl
  · unfold rdEval; split <;> rfl
  · rfl

/-- The counting half of a service claim touches nothing beyond what an exit action may touch. -/
theorem svcCount_frame (s : State) :
    svcCount s = { s with
      svc := (svcCount s).svc
      power := { s.power with
        ackBaseMA := (svcCount s).power.ackBaseMA
        ackFlag := (svcCount s).power.ackFlag
        sensorMode := (svcCount s).power.sensorMode }
      cb := (svcCount s).cb } := by
  by_cases h : burstBudget s.svc.budget (svcRepeat s.par s.svc.state) = 0
  · rw [svcCount_last h, svcExit_frame]; rfl
  · rw [svcCount_more h]; rfl

/-! ## The choice of the family and the fetch -/

theorem dispatchFamily_loco {s : State} : dispatchFamily s = .loco ↔
    (s.enc.fam = .loco ∨ (s.enc.fam = .pom ∧ s.pom.state = .idle) ∨
      (s.enc.fam = .service ∧ s.svc.state = .idle)) := by
  cases hf : s.enc.fam <;> simp [dispatchFamily, hf]

theorem dispatchFamily_function {s : State} : dispatchFamily s = .function ↔ s.enc.fam = .function := by
  cases hf : s.enc.fam <;> simp [dispatchFamily, hf] <;> split <;> simp

theorem dispatchFamily_pom {s : State} :
    dispatchFamily s = .pom ↔ s.enc.fam = .pom ∧ s.pom.state ≠ .idle := by
  cases hf : s.enc.fam <;> simp [dispatchFamily, hf]; split <;> simp

theorem dispatchFamily_service {s : State} :
    dispatchFamily s = .service ↔ s.enc.fam = .service ∧ s.svc.state ≠ .idle := by
  cases hf : s.enc.fam <;> simp [dispatchFamily, hf]; split <;> simp

/-- Without a packet given from outside the fetch is DISPATCH. -/
theorem fetch_of_noLoad {s : State} (h : noLoad s.agenda = true) : fetch s = assemble s := by
  unfold fetch
  split
  · rename_i e; rw [e] at h; cases h
  · rfl

theorem noLoad_tail {es : List Event} (h : noLoad es = true) : noLoad es.tail = true := by
  cases es with
  | nil => rfl
  | cons e es => cases e <;> first | exact h | cases h

/-- What `ENC_STEP` can do (R170): nothing but take its turn, or run the packet that the fetched bytes are. -/
theorem encStep_next {s t : State} (h : encStep s = .next t) :
    (s.shared.free = false ∧ t = popTurn s) ∨
    (s.shared.free = true ∧
      ∃ i f bs, fetch s = some (f, bs) ∧ decode f bs = .ok i ∧ exec i s = .next t) := by
  unfold encStep at h
  cases hf : s.shared.free
  · rw [hf] at h; left; exact ⟨rfl, by simpa using h.symm⟩
  · rw [hf] at h; right
    refine ⟨rfl, ?_⟩
    simp only [if_true, encClaim] at h
    cases hq : fetch s with
    | none => rw [hq] at h; cases h
    | some p =>
      obtain ⟨f, bs⟩ := p
      rw [hq] at h; simp only at h
      cases hd : decode f bs with
      | error e => rw [hd] at h; cases h
      | ok i => rw [hd] at h; exact ⟨i, f, bs, rfl, hd, h⟩

/-- The configuration check reads the parameters and whether the table is empty. -/
theorem configStop_congr {s t : State} (hp : s.par = t.par) (hl : s.loco.length = t.loco.length) :
    configStop s = configStop t := by
  have : (s.loco = []) = (t.loco = []) := by
    rw [← List.length_eq_zero_iff, hl, List.length_eq_zero_iff]
  simp only [configStop, hp, this]

/-- Arranging the records for a packet changes neither the parameters, nor the capacity, nor the turns. -/
theorem arrange_frame {i : Instr} {s t : State} (h : arrange i s = some t) :
    t.par = s.par ∧ t.loco.length = s.loco.length ∧ t.agenda = s.agenda := by
  cases i <;>
    simp only [arrange, Option.ite_none_left_eq_some, Option.some.injEq, reduceCtorEq] at h <;>
    obtain ⟨_, rfl⟩ := h <;>
    simp [arrangeLoco, arrangeFunction, arrangePom, arrangeSvc]

end Sys2Proof.Machine
end

