-- ==== Sys2Proof/Laws/HostCommands.lean ====
section
/-! SUPPORT. What the host commands with more than one case do, said once, and the frame of the power monitor's
procedures. -/

namespace Sys2Proof.Machine

/-- A sample for the detector changes the flag only (R297). -/
theorem pmAckSample_eq (i : Rat) (p : Power) :
    pmAckSample i p = { p with ackFlag := p.ackFlag || ackSeen p i } := by
  unfold pmAckSample; split <;> simp_all

/-- A monitor tick touches the averages, the trip and the enable flag only (R291, R293). -/
theorem pmTick10_frame (i u : Rat) (p : Power) :
    pmTick10 i u p = { p with
      busMA := smooth Config.emaWeight p.busMA i
      busVolts := smooth Config.voltEmaWeight p.busVolts u
      trip := (pmTick10 i u p).trip
      enable := (pmTick10 i u p).enable } := by
  unfold pmTick10 tripCheck
  split <;> rfl

/-- A monitor tick never clears a trip (R294). -/
theorem pmTick10_trip {i u : Rat} {p : Power} (h : p.trip = true) : (pmTick10 i u p).trip = true := by
  unfold pmTick10 tripCheck
  split
  · rfl
  · exact h

/-- A sample the environment may supply is taken as it is (R290). -/
theorem readSample_of_nonneg {kind : Config.SampleKind} {n : Nat} {x : Rat} (h : 0 ≤ x) :
    readSample kind n x = x := if_neg (not_lt.mpr h)

/-- Whatever is supplied, the monitor takes a non-negative sample (R290, log entry 14). -/
theorem readSample_nonneg (kind : Config.SampleKind) (n : Nat) (x : Rat) : 0 ≤ readSample kind n x := by
  unfold readSample
  split
  · exact NNRat.cast_nonneg _
  · exact not_lt.mp ‹_›

/-- `H_TICK_CONSUME` is the two halves at samples that are not negative (R312, R290). -/
theorem hTickConsume_samples (i10 u10 i1 : Rat) (s : State) :
    ∃ a u c, 0 ≤ a ∧ 0 ≤ u ∧ 0 ≤ c ∧ hTickConsume i10 u10 i1 s = consumeTick1 c (consumeTick10 a u s) :=
  ⟨_, _, _, readSample_nonneg _ _ _, readSample_nonneg _ _ _, readSample_nonneg _ _ _, rfl⟩

theorem consumeTick10_frame (i10 u10 : Rat) (s : State) :
    consumeTick10 i10 u10 s =
      { s with shared := { s.shared with tick10 := false }, power := (consumeTick10 i10 u10 s).power } := by
  unfold consumeTick10
  split
  · rfl
  · rename_i h
    rcases s with ⟨⟨d, l, lp, f, a, b⟩, tx, enc, lo, ac, pm, sv, pw, cb, pr, ag⟩
    simp only [Bool.not_eq_true] at h; subst h; rfl

theorem consumeTick1_frame (i1 : Rat) (s : State) :
    consumeTick1 i1 s =
      { s with
        shared := { s.shared with tick1 := (consumeTick1 i1 s).shared.tick1 }
        power := (consumeTick1 i1 s).power } := by
  unfold consumeTick1
  split <;> rfl

/-- The tick consumer changes the power record by a monitor tick or not at all, and by the flag. -/
theorem tickConsume_power (i10 u10 i1 : Rat) (s : State) :
    ∃ p a, (p = s.power ∨ p = pmTick10 i10 u10 s.power) ∧
      (consumeTick1 i1 (consumeTick10 i10 u10 s)).power = { p with ackFlag := a } := by
  have h10 : ∃ p a, (p = s.power ∨ p = pmTick10 i10 u10 s.power) ∧
      (consumeTick10 i10 u10 s).power = { p with ackFlag := a } := by
    unfold consumeTick10
    split
    · simp only [setPower_power]
      split
      · exact ⟨_, _, .inr rfl, rfl⟩
      · rw [pmAckSample_eq]; exact ⟨_, _, .inr rfl, rfl⟩
    · exact ⟨_, _, .inl rfl, rfl⟩
  obtain ⟨p, a, h1, h2⟩ := h10
  unfold consumeTick1
  split
  · rw [setPower_power, pmAckSample_eq, h2]; exact ⟨p, _, h1, rfl⟩
  · exact ⟨p, a, h1, h2⟩

/-- The POM half of `H_QTICK` touches the POM record only (R321). -/
theorem pomQtick_frame (s : State) : pomQtick s = { s with pom := (pomQtick s).pom } := by
  unfold pomQtick; split
  · rfl
  · simp only; split <;> rfl

/-- The service half of `H_QTICK` touches the sequencer and the sensor mode only (R321). -/
theorem svcQtick_frame (s : State) :
    svcQtick s = { s with
      svc := (svcQtick s).svc
      power := { s.power with sensorMode := (svcQtick s).power.sensorMode } } := by
  unfold svcQtick; split
  · rfl
  · simp only; split <;> rfl

/-- What `H_LOCO_WRITE` can do (R311). -/
theorem hLocoWrite_next {i : Nat} {w : LocoWrite} {s t : State} (h : hLocoWrite i w s = .next t) :
    ∃ l, s.loco[i]? = some l ∧ t = setLoco s (s.loco.set i (writeLocoField l w)) := by
  unfold hLocoWrite at h
  split at h
  · cases h
  · rename_i l hl; cases h; exact ⟨l, hl, rfl⟩

/-- Clearing a trip touches the trip and the enable flag only (R317). -/
theorem clearTrip_frame (p : Power) :
    clearTrip p = { p with trip := false, enable := (clearTrip p).enable } := by
  unfold clearTrip
  split
  · rfl
  · rename_i h; rcases p; simp_all

/-- The recovery of the Estop family touches the trip, the smoothed current and the enable flag only (R221). -/
theorem recoverTrip_frame (safe : Rat) (p : Power) :
    recoverTrip safe p = { p with
      trip := false, busMA := (recoverTrip safe p).busMA, enable := (recoverTrip safe p).enable } := by
  unfold recoverTrip
  split
  · rfl
  · rename_i h; rcases p; simp_all

end Sys2Proof.Machine
end

