-- ==== Sys2Proof/Laws/PerInstr.lean ====
section
/-! SUPPORT. The statements about every instruction as syntax, one lemma for each constructor: its payload has
two to five bytes, as many as its row of spec/opcode_table.json says, and the payload matches the row. -/

namespace Sys2Proof.Laws

/-- The payload length of a packet type (R101, R172): two to five bytes, those of its table row. -/
def PayloadLength.Statement (i : Instr) : Prop :=
  2 ≤ (encode i).length ∧ (encode i).length ≤ 5 ∧ (encode i).length = i.row.bytes

/-- The payload matches the row of the opcode table (R102). -/
def TableRowMatch.Statement (i : Instr) : Prop :=
  tableNumber (encode i) &&& i.row.mask = i.row.pattern

/-- Masking a two-digit number in base 256 masks each digit. -/
theorem and_digits (x y b m : Nat) (hb : b < 256) (hm : m < 256) :
    (x * 256 + b) &&& (y * 256 + m) = (x &&& y) * 256 + (b &&& m) := by
  have hbm : b &&& m < 256 := lt_of_le_of_lt Nat.and_le_left hb
  have shift : ∀ z c : Nat, c < 256 → z * 256 + c = 2 ^ 8 * z + c := fun z c _ => by omega
  rw [shift x b hb, shift y m hm, shift _ _ hbm]
  apply Nat.eq_of_testBit_eq
  intro k
  rw [Nat.testBit_and, Nat.testBit_two_pow_mul_add x hb, Nat.testBit_two_pow_mul_add y hm,
    Nat.testBit_two_pow_mul_add _ hbm]
  split <;> simp [Nat.testBit_and]

/-- A byte of the payload against the same byte of a mask and a pattern. -/
theorem mask_byte {b : Byte} {m p : Nat} (hm : m < 256) (h : b &&& BitVec.ofNat 8 m = BitVec.ofNat 8 p)
    (hp : p < 256) : b.toNat &&& m = p := by
  have h' := congrArg BitVec.toNat h
  rw [BitVec.toNat_and, BitVec.toNat_ofNat, BitVec.toNat_ofNat, Nat.mod_eq_of_lt hm,
    Nat.mod_eq_of_lt hp] at h'
  exact h'

theorem mask2 {b0 b1 : Byte} (m0 m1 p0 p1 : Nat) (h0 : b0.toNat &&& m0 = p0) (h1 : b1.toNat &&& m1 = p1)
    (hm : m1 < 256) : tableNumber [b0, b1] &&& (m0 * 256 + m1) = p0 * 256 + p1 := by
  simp only [tableNumber, List.foldl]
  rw [and_digits _ _ _ _ b1.isLt hm, h1, Nat.zero_mul, Nat.zero_add, h0]

theorem mask_snoc {bs : List Byte} {b : Byte} (m m' p p' : Nat) (h : tableNumber bs &&& m = p)
    (h' : b.toNat &&& m' = p') (hm : m' < 256) :
    tableNumber (bs ++ [b]) &&& (m * 256 + m') = p * 256 + p' := by
  simp only [tableNumber, List.foldl_append, List.foldl]
  simp only [tableNumber] at h
  rw [and_digits _ _ _ _ b.isLt hm, h', h]

theorem masked_short (a : BitVec 7) : (0#1 ++ a : Byte).toNat &&& 0x80 = 0 :=
  mask_byte (by decide) ((by decide : ∀ a : BitVec 7, (0#1 ++ a : Byte) &&& 0x80#8 = 0#8) a) (by decide)

theorem masked_long (a : BitVec 6) : (3#2 ++ a : Byte).toNat &&& 0xC0 = 0xC0 :=
  mask_byte (by decide) ((by decide : ∀ a : BitVec 6, (3#2 ++ a : Byte) &&& 0xC0#8 = 0xC0#8) a) (by decide)

theorem masked_free (b : Byte) : b.toNat &&& 0 = 0 := Nat.and_zero _

theorem masked_acc0 (x : BitVec 6) : (2#2 ++ x : Byte).toNat &&& 0xC0 = 0x80 :=
  mask_byte (by decide) ((by decide : ∀ x : BitVec 6, (2#2 ++ x : Byte) &&& 0xC0#8 = 0x80#8) x) (by decide)

theorem masked_acc1 (x : BitVec 3) (p : BitVec 2) (r : Bool) :
    (1#1 ++ x ++ 1#1 ++ p ++ BitVec.ofBool r : Byte).toNat &&& 0x88 = 0x88 :=
  mask_byte (by decide) ((by decide : ∀ (x : BitVec 3) (p : BitVec 2) (r : Bool),
    (1#1 ++ x ++ 1#1 ++ p ++ BitVec.ofBool r : Byte) &&& 0x88#8 = 0x88#8) x p r) (by decide)

theorem masked_acc1_pom (x : BitVec 3) (p : BitVec 2) :
    (1#1 ++ x ++ 1#1 ++ p ++ BitVec.ofBool false : Byte).toNat &&& 0x89 = 0x88 :=
  mask_byte (by decide) ((by decide : ∀ (x : BitVec 3) (p : BitVec 2),
    (1#1 ++ x ++ 1#1 ++ p ++ BitVec.ofBool false : Byte) &&& 0x89#8 = 0x88#8) x p) (by decide)

theorem masked_speed28 (d : Bool) (code : BitVec 5) : (speed28Byte d code).toNat &&& 0xC0 = 0x40 :=
  mask_byte (by decide) ((by decide : ∀ (d : Bool) (code : BitVec 5),
    speed28Byte d code &&& 0xC0#8 = 0x40#8) d code) (by decide)

theorem masked_estop28 (d : Bool) : (speed28Byte d 1#5).toNat &&& 0xDF = 0x41 :=
  mask_byte (by decide) ((by decide : ∀ d : Bool, speed28Byte d 1#5 &&& 0xDF#8 = 0x41#8) d) (by decide)

theorem masked_fg1 (f : BitVec 5) : (4#3 ++ f : Byte).toNat &&& 0xE0 = 0x80 :=
  mask_byte (by decide) ((by decide : ∀ f : BitVec 5, (4#3 ++ f : Byte) &&& 0xE0#8 = 0x80#8) f) (by decide)

theorem masked_fg2 (f : BitVec 4) : (11#4 ++ f : Byte).toNat &&& 0xF0 = 0xB0 :=
  mask_byte (by decide) ((by decide : ∀ f : BitVec 4, (11#4 ++ f : Byte) &&& 0xF0#8 = 0xB0#8) f) (by decide)

theorem masked_fg3 (f : BitVec 4) : (10#4 ++ f : Byte).toNat &&& 0xF0 = 0xA0 :=
  mask_byte (by decide) ((by decide : ∀ f : BitVec 4, (10#4 ++ f : Byte) &&& 0xF0#8 = 0xA0#8) f) (by decide)

theorem masked_pom (cc x : BitVec 2) : (14#4 ++ cc ++ x : Byte).toNat &&& 0xFC = 0xE0 + 4 * cc.toNat :=
  mask_byte (by decide) ((by decide : ∀ cc x : BitVec 2,
    (14#4 ++ cc ++ x : Byte) &&& 0xFC#8 = BitVec.ofNat 8 (0xE0 + 4 * cc.toNat)) cc x) (by omega)

theorem masked_svc (cc x : BitVec 2) : (7#4 ++ cc ++ x : Byte).toNat &&& 0xFC = 0x70 + 4 * cc.toNat :=
  mask_byte (by decide) ((by decide : ∀ cc x : BitVec 2,
    (7#4 ++ cc ++ x : Byte) &&& 0xFC#8 = BitVec.ofNat 8 (0x70 + 4 * cc.toNat)) cc x) (by omega)

theorem masked_writeBit (v : Bool) (k : BitVec 3) : (writeBitByte v k).toNat &&& 0xF0 = 0xF0 :=
  mask_byte (by decide) ((by decide : ∀ (v : Bool) (k : BitVec 3),
    writeBitByte v k &&& 0xF0#8 = 0xF0#8) v k) (by decide)

theorem masked_verifyBit (k : BitVec 3) : (verifyBitByte k).toNat &&& 0xF8 = 0xE8 :=
  mask_byte (by decide) ((by decide : ∀ k : BitVec 3, verifyBitByte k &&& 0xF8#8 = 0xE8#8) k) (by decide)

theorem masked_regwr (r : BitVec 2) : (30#6 ++ r : Byte).toNat &&& 0xFC = 0x78 :=
  mask_byte (by decide) ((by decide : ∀ r : BitVec 2, (30#6 ++ r : Byte) &&& 0xFC#8 = 0x78#8) r) (by decide)

theorem whole (n : Nat) (h : n < 256) : (BitVec.ofNat 8 n).toNat &&& 0xFF = n := by
  rw [BitVec.toNat_ofNat, Nat.mod_eq_of_lt h]
  exact Nat.and_two_pow_sub_one_of_lt_two_pow (n := 8) h

theorem PayloadLength.idle :
    PayloadLength.Statement (.idle) := ⟨by decide, by decide, rfl⟩

theorem TableRowMatch.idle :
    TableRowMatch.Statement (.idle) :=
  mask2 _ _ _ _ (whole 0xFF (by decide)) (whole 0 (by decide)) (by decide)

theorem PayloadLength.spd28S (a : BitVec 7) (d : Bool) (code : BitVec 5) :
    PayloadLength.Statement (.spd28S a d code) := ⟨Nat.le_of_ble_eq_true rfl, Nat.le_of_ble_eq_true rfl, rfl⟩

theorem TableRowMatch.spd28S (a : BitVec 7) (d : Bool) (code : BitVec 5) :
    TableRowMatch.Statement (.spd28S a d code) :=
  mask2 _ _ _ _ (masked_short _) (masked_speed28 _ _) (by decide)

theorem PayloadLength.spd28L (a : BitVec 14) (d : Bool) (code : BitVec 5) :
    PayloadLength.Statement (.spd28L a d code) := ⟨Nat.le_of_ble_eq_true rfl, Nat.le_of_ble_eq_true rfl, rfl⟩

theorem TableRowMatch.spd28L (a : BitVec 14) (d : Bool) (code : BitVec 5) :
    TableRowMatch.Statement (.spd28L a d code) :=
  mask_snoc _ _ _ _ (mask2 _ _ _ _ (masked_long _) (masked_free _) (by decide)) (masked_speed28 _ _) (by decide)

theorem PayloadLength.spd128S (a : BitVec 7) (d : Bool) (code : BitVec 7) :
    PayloadLength.Statement (.spd128S a d code) := ⟨Nat.le_of_ble_eq_true rfl, Nat.le_of_ble_eq_true rfl, rfl⟩

theorem TableRowMatch.spd128S (a : BitVec 7) (d : Bool) (code : BitVec 7) :
    TableRowMatch.Statement (.spd128S a d code) :=
  mask_snoc _ _ _ _ (mask2 _ _ _ _ (masked_short _) (whole 0x3F (by decide)) (by decide)) (masked_free _) (by decide)

theorem PayloadLength.spd128L (a : BitVec 14) (d : Bool) (code : BitVec 7) :
    PayloadLength.Statement (.spd128L a d code) := ⟨Nat.le_of_ble_eq_true rfl, Nat.le_of_ble_eq_true rfl, rfl⟩

theorem TableRowMatch.spd128L (a : BitVec 14) (d : Bool) (code : BitVec 7) :
    TableRowMatch.Statement (.spd128L a d code) :=
  mask_snoc _ _ _ _ (
    mask_snoc _ _ _ _ (mask2 _ _ _ _ (masked_long _) (masked_free _) (by decide)) (whole 0x3F (by decide)) (by decide)) (masked_free _) (by decide)

theorem PayloadLength.estop28S (a : BitVec 7) (d : Bool) :
    PayloadLength.Statement (.estop28S a d) := ⟨Nat.le_of_ble_eq_true rfl, Nat.le_of_ble_eq_true rfl, rfl⟩

theorem TableRowMatch.estop28S (a : BitVec 7) (d : Bool) :
    TableRowMatch.Statement (.estop28S a d) :=
  mask2 _ _ _ _ (masked_short _) (masked_estop28 _) (by decide)

theorem PayloadLength.estop28L (a : BitVec 14) (d : Bool) :
    PayloadLength.Statement (.estop28L a d) := ⟨Nat.le_of_ble_eq_true rfl, Nat.le_of_ble_eq_true rfl, rfl⟩

theorem TableRowMatch.estop28L (a : BitVec 14) (d : Bool) :
    TableRowMatch.Statement (.estop28L a d) :=
  mask_snoc _ _ _ _ (mask2 _ _ _ _ (masked_long _) (masked_free _) (by decide)) (masked_estop28 _) (by decide)

theorem PayloadLength.estop128S (a : BitVec 7) :
    PayloadLength.Statement (.estop128S a) := ⟨Nat.le_of_ble_eq_true rfl, Nat.le_of_ble_eq_true rfl, rfl⟩

theorem TableRowMatch.estop128S (a : BitVec 7) :
    TableRowMatch.Statement (.estop128S a) :=
  mask_snoc _ _ _ _ (mask2 _ _ _ _ (masked_short _) (whole 0x3F (by decide)) (by decide)) (whole 1 (by decide)) (by decide)

theorem PayloadLength.estop128L (a : BitVec 14) :
    PayloadLength.Statement (.estop128L a) := ⟨Nat.le_of_ble_eq_true rfl, Nat.le_of_ble_eq_true rfl, rfl⟩

theorem TableRowMatch.estop128L (a : BitVec 14) :
    TableRowMatch.Statement (.estop128L a) :=
  mask_snoc _ _ _ _ (
    mask_snoc _ _ _ _ (mask2 _ _ _ _ (masked_long _) (masked_free _) (by decide)) (whole 0x3F (by decide)) (by decide)) (whole 1 (by decide)) (by decide)

theorem PayloadLength.fg1S (a : BitVec 7) (f : BitVec 5) :
    PayloadLength.Statement (.fg1S a f) := ⟨Nat.le_of_ble_eq_true rfl, Nat.le_of_ble_eq_true rfl, rfl⟩

theorem TableRowMatch.fg1S (a : BitVec 7) (f : BitVec 5) :
    TableRowMatch.Statement (.fg1S a f) :=
  mask2 _ _ _ _ (masked_short _) (masked_fg1 _) (by decide)

theorem PayloadLength.fg1L (a : BitVec 14) (f : BitVec 5) :
    PayloadLength.Statement (.fg1L a f) := ⟨Nat.le_of_ble_eq_true rfl, Nat.le_of_ble_eq_true rfl, rfl⟩

theorem TableRowMatch.fg1L (a : BitVec 14) (f : BitVec 5) :
    TableRowMatch.Statement (.fg1L a f) :=
  mask_snoc _ _ _ _ (mask2 _ _ _ _ (masked_long _) (masked_free _) (by decide)) (masked_fg1 _) (by decide)

theorem PayloadLength.fg2S (a : BitVec 7) (f : BitVec 4) :
    PayloadLength.Statement (.fg2S a f) := ⟨Nat.le_of_ble_eq_true rfl, Nat.le_of_ble_eq_true rfl, rfl⟩

theorem TableRowMatch.fg2S (a : BitVec 7) (f : BitVec 4) :
    TableRowMatch.Statement (.fg2S a f) :=
  mask2 _ _ _ _ (masked_short _) (masked_fg2 _) (by decide)

theorem PayloadLength.fg2L (a : BitVec 14) (f : BitVec 4) :
    PayloadLength.Statement (.fg2L a f) := ⟨Nat.le_of_ble_eq_true rfl, Nat.le_of_ble_eq_true rfl, rfl⟩

theorem TableRowMatch.fg2L (a : BitVec 14) (f : BitVec 4) :
    TableRowMatch.Statement (.fg2L a f) :=
  mask_snoc _ _ _ _ (mask2 _ _ _ _ (masked_long _) (masked_free _) (by decide)) (masked_fg2 _) (by decide)

theorem PayloadLength.fg3S (a : BitVec 7) (f : BitVec 4) :
    PayloadLength.Statement (.fg3S a f) := ⟨Nat.le_of_ble_eq_true rfl, Nat.le_of_ble_eq_true rfl, rfl⟩

theorem TableRowMatch.fg3S (a : BitVec 7) (f : BitVec 4) :
    TableRowMatch.Statement (.fg3S a f) :=
  mask2 _ _ _ _ (masked_short _) (masked_fg3 _) (by decide)

theorem PayloadLength.fg3L (a : BitVec 14) (f : BitVec 4) :
    PayloadLength.Statement (.fg3L a f) := ⟨Nat.le_of_ble_eq_true rfl, Nat.le_of_ble_eq_true rfl, rfl⟩

theorem TableRowMatch.fg3L (a : BitVec 14) (f : BitVec 4) :
    TableRowMatch.Statement (.fg3L a f) :=
  mask_snoc _ _ _ _ (mask2 _ _ _ _ (masked_long _) (masked_free _) (by decide)) (masked_fg3 _) (by decide)

theorem PayloadLength.acc (board : BitVec 9) (pair : BitVec 2) (r : Bool) :
    PayloadLength.Statement (.acc board pair r) := ⟨Nat.le_of_ble_eq_true rfl, Nat.le_of_ble_eq_true rfl, rfl⟩

theorem TableRowMatch.acc (board : BitVec 9) (pair : BitVec 2) (r : Bool) :
    TableRowMatch.Statement (.acc board pair r) :=
  mask2 _ _ _ _ (masked_acc0 _) (masked_acc1 _ _ _) (by decide)

theorem PayloadLength.bstop :
    PayloadLength.Statement (.bstop) := ⟨by decide, by decide, rfl⟩

theorem TableRowMatch.bstop :
    TableRowMatch.Statement (.bstop) :=
  mask2 _ _ _ _ (whole 0 (by decide)) (whole 0x41 (by decide)) (by decide)

theorem PayloadLength.pomwbS (a : BitVec 7) (v : BitVec 10) (data : Byte) :
    PayloadLength.Statement (.pomwbS a v data) := ⟨Nat.le_of_ble_eq_true rfl, Nat.le_of_ble_eq_true rfl, rfl⟩

theorem TableRowMatch.pomwbS (a : BitVec 7) (v : BitVec 10) (data : Byte) :
    TableRowMatch.Statement (.pomwbS a v data) :=
  mask_snoc _ _ _ _ (
    mask_snoc _ _ _ _ (mask2 _ _ _ _ (masked_short _) (masked_pom 3#2 _) (by decide)) (masked_free _) (by decide)) (masked_free _) (by decide)

theorem PayloadLength.pomwbL (a : BitVec 14) (v : BitVec 10) (data : Byte) :
    PayloadLength.Statement (.pomwbL a v data) := ⟨Nat.le_of_ble_eq_true rfl, Nat.le_of_ble_eq_true rfl, rfl⟩

theorem TableRowMatch.pomwbL (a : BitVec 14) (v : BitVec 10) (data : Byte) :
    TableRowMatch.Statement (.pomwbL a v data) :=
  mask_snoc _ _ _ _ (
    mask_snoc _ _ _ _ (
    mask_snoc _ _ _ _ (mask2 _ _ _ _ (masked_long _) (masked_free _) (by decide)) (masked_pom 3#2 _) (by decide)) (masked_free _) (by decide)) (masked_free _) (by decide)

theorem PayloadLength.pomwbA (board : BitVec 9) (pair : BitVec 2) (v : BitVec 10) (data : Byte) :
    PayloadLength.Statement (.pomwbA board pair v data) := ⟨Nat.le_of_ble_eq_true rfl, Nat.le_of_ble_eq_true rfl, rfl⟩

theorem TableRowMatch.pomwbA (board : BitVec 9) (pair : BitVec 2) (v : BitVec 10) (data : Byte) :
    TableRowMatch.Statement (.pomwbA board pair v data) :=
  mask_snoc _ _ _ _ (
    mask_snoc _ _ _ _ (
    mask_snoc _ _ _ _ (mask2 _ _ _ _ (masked_acc0 _) (masked_acc1_pom _ _) (by decide)) (masked_pom 3#2 _) (by decide)) (masked_free _) (by decide)) (masked_free _) (by decide)

theorem PayloadLength.pombitS (a : BitVec 7) (v : BitVec 10) (val : Bool) (pos : BitVec 3) :
    PayloadLength.Statement (.pombitS a v val pos) := ⟨Nat.le_of_ble_eq_true rfl, Nat.le_of_ble_eq_true rfl, rfl⟩

theorem TableRowMatch.pombitS (a : BitVec 7) (v : BitVec 10) (val : Bool) (pos : BitVec 3) :
    TableRowMatch.Statement (.pombitS a v val pos) :=
  mask_snoc _ _ _ _ (
    mask_snoc _ _ _ _ (mask2 _ _ _ _ (masked_short _) (masked_pom 2#2 _) (by decide)) (masked_free _) (by decide)) (masked_writeBit _ _) (by decide)

theorem PayloadLength.pombitL (a : BitVec 14) (v : BitVec 10) (val : Bool) (pos : BitVec 3) :
    PayloadLength.Statement (.pombitL a v val pos) := ⟨Nat.le_of_ble_eq_true rfl, Nat.le_of_ble_eq_true rfl, rfl⟩

theorem TableRowMatch.pombitL (a : BitVec 14) (v : BitVec 10) (val : Bool) (pos : BitVec 3) :
    TableRowMatch.Statement (.pombitL a v val pos) :=
  mask_snoc _ _ _ _ (
    mask_snoc _ _ _ _ (
    mask_snoc _ _ _ _ (mask2 _ _ _ _ (masked_long _) (masked_free _) (by decide)) (masked_pom 2#2 _) (by decide)) (masked_free _) (by decide)) (masked_writeBit _ _) (by decide)

theorem PayloadLength.pombitA (board : BitVec 9) (pair : BitVec 2) (v : BitVec 10) (val : Bool) (pos : BitVec 3) :
    PayloadLength.Statement (.pombitA board pair v val pos) := ⟨Nat.le_of_ble_eq_true rfl, Nat.le_of_ble_eq_true rfl, rfl⟩

theorem TableRowMatch.pombitA (board : BitVec 9) (pair : BitVec 2) (v : BitVec 10) (val : Bool) (pos : BitVec 3) :
    TableRowMatch.Statement (.pombitA board pair v val pos) :=
  mask_snoc _ _ _ _ (
    mask_snoc _ _ _ _ (
    mask_snoc _ _ _ _ (mask2 _ _ _ _ (masked_acc0 _) (masked_acc1_pom _ _) (by decide)) (masked_pom 2#2 _) (by decide)) (masked_free _) (by decide)) (masked_writeBit _ _) (by decide)

theorem PayloadLength.svcReset :
    PayloadLength.Statement (.svcReset) := ⟨by decide, by decide, rfl⟩

theorem TableRowMatch.svcReset :
    TableRowMatch.Statement (.svcReset) :=
  mask2 _ _ _ _ (whole 0 (by decide)) (whole 0 (by decide)) (by decide)

theorem PayloadLength.svcPgwr (page : Byte) :
    PayloadLength.Statement (.svcPgwr page) := ⟨Nat.le_of_ble_eq_true rfl, Nat.le_of_ble_eq_true rfl, rfl⟩

theorem TableRowMatch.svcPgwr (page : Byte) :
    TableRowMatch.Statement (.svcPgwr page) :=
  mask2 _ _ _ _ (whole 0x7D (by decide)) (masked_free _) (by decide)

theorem PayloadLength.svcRegwr (reg : BitVec 2) (data : Byte) :
    PayloadLength.Statement (.svcRegwr reg data) := ⟨Nat.le_of_ble_eq_true rfl, Nat.le_of_ble_eq_true rfl, rfl⟩

theorem TableRowMatch.svcRegwr (reg : BitVec 2) (data : Byte) :
    TableRowMatch.Statement (.svcRegwr reg data) :=
  mask2 _ _ _ _ (masked_regwr _) (masked_free _) (by decide)

theorem PayloadLength.svcWrbyte (v : BitVec 10) (data : Byte) :
    PayloadLength.Statement (.svcWrbyte v data) := ⟨Nat.le_of_ble_eq_true rfl, Nat.le_of_ble_eq_true rfl, rfl⟩

theorem TableRowMatch.svcWrbyte (v : BitVec 10) (data : Byte) :
    TableRowMatch.Statement (.svcWrbyte v data) :=
  mask_snoc _ _ _ _ (mask2 _ _ _ _ (masked_svc 3#2 _) (masked_free _) (by decide)) (masked_free _) (by decide)

theorem PayloadLength.svcVfbyte (v : BitVec 10) (data : Byte) :
    PayloadLength.Statement (.svcVfbyte v data) := ⟨Nat.le_of_ble_eq_true rfl, Nat.le_of_ble_eq_true rfl, rfl⟩

theorem TableRowMatch.svcVfbyte (v : BitVec 10) (data : Byte) :
    TableRowMatch.Statement (.svcVfbyte v data) :=
  mask_snoc _ _ _ _ (mask2 _ _ _ _ (masked_svc 1#2 _) (masked_free _) (by decide)) (masked_free _) (by decide)

theorem PayloadLength.svcVfbit (v : BitVec 10) (pos : BitVec 3) :
    PayloadLength.Statement (.svcVfbit v pos) := ⟨Nat.le_of_ble_eq_true rfl, Nat.le_of_ble_eq_true rfl, rfl⟩

theorem TableRowMatch.svcVfbit (v : BitVec 10) (pos : BitVec 3) :
    TableRowMatch.Statement (.svcVfbit v pos) :=
  mask_snoc _ _ _ _ (mask2 _ _ _ _ (masked_svc 2#2 _) (masked_free _) (by decide)) (masked_verifyBit _) (by decide)

theorem PayloadLength.svcWrbit (v : BitVec 10) (val : Bool) (pos : BitVec 3) :
    PayloadLength.Statement (.svcWrbit v val pos) := ⟨Nat.le_of_ble_eq_true rfl, Nat.le_of_ble_eq_true rfl, rfl⟩

theorem TableRowMatch.svcWrbit (v : BitVec 10) (val : Bool) (pos : BitVec 3) :
    TableRowMatch.Statement (.svcWrbit v val pos) :=
  mask_snoc _ _ _ _ (mask2 _ _ _ _ (masked_svc 2#2 _) (masked_free _) (by decide)) (masked_writeBit _ _) (by decide)

end Sys2Proof.Laws
end

