-- ==== Sys2Proof/Laws/Step.lean ====
section
/-! SUPPORT. Everything one step can do: the inversion of `step`, cited by the whole-machine rules. -/

namespace Sys2Proof.Machine

theorem popTurn_nil {s : State} (h : s.agenda = []) : popTurn s = s := by
  cases s; simp only at h; subst h; rfl

/-- What happened in a step that answers a next state: a TX step, a claim that runs the decoded packet, an encoder
turn with the flag false, a host command, or a RESET (20_memory R81). -/
inductive StepNext (s t : State) : Prop
  | tx (ha : s.agenda = [] ∨ ∃ es, s.agenda = .tx :: es) (h : txStep (popTurn s) = .next t)
  | claim (i : Instr) (f : Family) (bs : List Byte)
      (ha : s.agenda = [] ∨ (∃ es, s.agenda = .enc :: es) ∨ ∃ es, s.agenda = .load f bs :: es)
      (hfree : s.shared.free = true)
      (hf : fetch s = some (f, bs)) (hd : decode f bs = .ok i) (h : exec i s = .next t)
  | pass (ha : (∃ es, s.agenda = .enc :: es) ∨ ∃ f bs es, s.agenda = .load f bs :: es)
      (hfree : s.shared.free = false) (h : t = popTurn s)
  | host (c : HostCmd) (es : List Event) (ha : s.agenda = .host c :: es)
      (h : hostStep c (popTurn s) = .next t)
  | reset (table : List LocoBoot) (iLim vLim : Rat) (es : List Event)
      (ha : s.agenda = .reset table iLim vLim :: es)
      (h : t = State.boot s.par s.loco.length table iLim vLim es)

theorem step_next {s t : State} (h : step s = .next t) : StepNext s t := by
  unfold step at h
  split at h
  · cases h
  · unfold agentStep at h
    split at h
    · rename_i ha
      split at h
      · rename_i hfree
        rcases encStep_next h with ⟨h1, _⟩ | ⟨h1, i, f, bs, h2, h3, h4⟩
        · rw [h1] at hfree; cases hfree
        · exact .claim i f bs (.inl ha) h1 h2 h3 h4
      · exact .tx (.inl ha) (by rw [popTurn_nil ha]; exact h)
    · rename_i ha; exact .tx (.inr ⟨_, ha⟩) h
    · rename_i ha
      rcases encStep_next h with ⟨h1, h2⟩ | ⟨h1, i, f, bs, h2, h3, h4⟩
      · exact .pass (.inl ⟨_, ha⟩) h1 h2
      · exact .claim i f bs (.inr (.inl ⟨_, ha⟩)) h1 h2 h3 h4
    · rename_i ha; exact .host _ _ ha h
    · rename_i ha; cases h
      exact .reset _ _ _ _ ha (by simp [resetStep, popTurn, setAgenda, ha])
    · rename_i ha
      rcases encStep_next h with ⟨h1, h2⟩ | ⟨h1, i, f, bs, h2, h3, h4⟩
      · exact .pass (.inr ⟨_, _, _, ha⟩) h1 h2
      · refine .claim i f bs (.inr (.inr ?_)) h1 h2 h3 h4
        simp only [fetch, ha, Option.some.injEq, Prod.mk.injEq] at h2
        obtain ⟨rfl, rfl⟩ := h2; exact ⟨_, ha⟩

end Sys2Proof.Machine
end

