-- ==== Sys2Proof/Laws/Transmitter.lean ====
section
/-! SUPPORT. What the transmitter's operations do, said once: the ticks in closed form, an inversion and a frame
of `TX_NEXT_BIT`, and the two cases of `TX_STEP`. -/

namespace Sys2Proof.Machine

/-- The byte access is the list access. -/
theorem packetByte_eq (d : PacketBytes) (k : Nat) : packetByte d k = (packetList d)[k]? := by
  rcases k with _ | _ | _ | _ | _ | _ | k <;> rfl

/-- The 1 ms part of `TX_TICKS`, in closed form (R151). -/
theorem tick1_eq (d : Nat) (s : State) : tick1 d s =
    setShared
      (setTx s { s.tx with
        acc1 := if s.par.enable1ms then
            (if Config.tick1Us ≤ s.tx.acc1 + d then s.tx.acc1 + d - Config.tick1Us else s.tx.acc1 + d)
          else s.tx.acc1 })
      { s.shared with
        tick1 := s.shared.tick1 || (s.par.enable1ms && decide (Config.tick1Us ≤ s.tx.acc1 + d)) } := by
  unfold tick1
  generalize Config.tick1Us = w
  cases h : s.par.enable1ms
  · simp; rfl
  · by_cases h2 : w ≤ s.tx.acc1 + d
    · simp [h2]
    · simp [h2]; rfl

/-- The 10 ms part of `TX_TICKS`, in closed form (R151, R152). -/
theorem tick10_eq (d : Nat) (s : State) : tick10 d s =
    setShared
      (setTx s { s.tx with
        acc10 := if Config.tick10Us ≤ s.tx.acc10 + d then s.tx.acc10 + d - Config.tick10Us
          else s.tx.acc10 + d
        pinEN := if Config.tick10Us ≤ s.tx.acc10 + d then s.power.enable else s.tx.pinEN })
      { s.shared with tick10 := s.shared.tick10 || decide (Config.tick10Us ≤ s.tx.acc10 + d) } := by
  unfold tick10
  generalize Config.tick10Us = w
  by_cases h2 : w ≤ s.tx.acc10 + d
  · simp [h2]
  · simp [h2]; rfl

/-- `TX_TICKS` touches the accumulators, the enable output and the two flags only. -/
theorem txTicks_frame (d : Nat) (s : State) : txTicks d s = { s with
    shared := { s.shared with
      tick10 := (txTicks d s).shared.tick10, tick1 := (txTicks d s).shared.tick1 }
    tx := { s.tx with
      acc10 := (txTicks d s).tx.acc10, acc1 := (txTicks d s).tx.acc1, pinEN := (txTicks d s).tx.pinEN } } := by
  rw [txTicks, tick1_eq, tick10_eq]
  generalize Config.tick10Us = w
  generalize Config.tick1Us = w'
  rfl

/-- What a byte start after the copy can do: it ends a packet that is not empty, or sends the separator
(R147, R149, U1). -/
theorem byteStart_next {s t : State} {b : Bool} (h : byteStart s = .next (t, b)) :
    (s.tx.bi = s.tx.buf.len ∧ s.tx.buf.len ≠ 0 ∧ (t, b) = endOfPacket s) ∨
    (s.tx.bi ≠ s.tx.buf.len ∧ (t, b) = separatorBit s) := by
  unfold byteStart at h
  split at h
  · split at h
    · cases h
    · exact .inl ⟨‹_›, ‹_›, (Host.Outcome.next.inj h).symm⟩
  · exact .inr ⟨‹_›, (Host.Outcome.next.inj h).symm⟩

/-- A byte start touches the countdown, the lock position and the byte index only. -/
theorem byteStart_frame {s t : State} {b : Bool} (h : byteStart s = .next (t, b)) :
    t = { s with tx := { s.tx with cnt := t.tx.cnt, lock := t.tx.lock, bi := t.tx.bi } } := by
  rcases byteStart_next h with ⟨_, _, e⟩ | ⟨_, e⟩ <;> (cases e; rfl)

/-- What `TX_NEXT_BIT` can do (R143): a preamble bit, the byte start with the copy, another byte start, a data
bit. -/
theorem nextBit_next {s t : State} {b : Bool} (h : nextBit s = .next (t, b)) :
    (9 < s.tx.cnt.toNat ∧ (t, b) = preambleBit s) ∨
    (s.tx.cnt = 9 ∧ s.tx.bi = 0 ∧ s.shared.len.toNat ≤ 6 ∧
      byteStart { s with
        shared := { s.shared with free := true }
        tx := { s.tx with buf := { data := s.shared.data, len := s.shared.len } } } = .next (t, b)) ∨
    (s.tx.cnt = 9 ∧ s.tx.bi ≠ 0 ∧ byteStart s = .next (t, b)) ∨
    (1 ≤ s.tx.cnt.toNat ∧ s.tx.cnt.toNat ≤ 8 ∧
      (∃ x, (packetList s.tx.buf.data)[s.tx.bi.toNat]? = some x ∧ b = x.getLsbD (s.tx.cnt.toNat - 1)) ∧
      t = setTx s (afterDataBit s.tx)) := by
  unfold nextBit at h
  by_cases h9 : 9 < s.tx.cnt.toNat
  · rw [if_pos (show Config.cntByteStart.toNat < s.tx.cnt.toNat from h9)] at h
    exact .inl ⟨h9, (Host.Outcome.next.inj h).symm⟩
  · rw [if_neg (show ¬ Config.cntByteStart.toNat < s.tx.cnt.toNat from h9)] at h
    split at h
    · rename_i hc
      split at h
      · rename_i hb
        unfold copyShared at h
        split at h
        · rename_i hq; split at hq
          · cases hq
          · rename_i h6; cases hq
            exact .inr (.inl ⟨hc, hb, by omega, h⟩)
        · cases h
        · cases h
      · rename_i hb; exact .inr (.inr (.inl ⟨hc, hb, h⟩))
    · rename_i hc
      unfold dataBit at h
      split at h
      · cases h
      · rename_i h0
        split at h
        · cases h
        · rename_i x hx
          cases h
          have : s.tx.cnt.toNat ≠ 0 := fun e => h0 (BitVec.eq_of_toNat_eq e)
          have : s.tx.cnt.toNat ≠ 9 := fun e => hc (BitVec.eq_of_toNat_eq e)
          rw [packetByte_eq] at hx
          exact .inr (.inr (.inr ⟨by omega, by omega, ⟨x, hx, rfl⟩, rfl⟩))

/-- The preamble bit touches the countdown and the handoff flag only. -/
theorem preambleBit_frame (s : State) :
    (preambleBit s).1 = { s with
      shared := { s.shared with free := if s.tx.cnt = s.tx.lock then false else s.shared.free }
      tx := { s.tx with cnt := s.tx.cnt - 1 } } := by
  unfold preambleBit
  by_cases h : s.tx.cnt = s.tx.lock
  · simp only [if_pos h]; rfl
  · simp only [if_neg h]; rfl

/-- `TX_NEXT_BIT` touches the handoff flag, the transmitter's buffer and its three counters only. -/
theorem nextBit_frame {s t : State} {b : Bool} (h : nextBit s = .next (t, b)) :
    t = { s with
      shared := { s.shared with free := t.shared.free }
      tx := { s.tx with buf := t.tx.buf, cnt := t.tx.cnt, bi := t.tx.bi, lock := t.tx.lock } } := by
  rcases nextBit_next h with ⟨_, e⟩ | ⟨_, _, _, e⟩ | ⟨_, _, e⟩ | ⟨_, _, _, rfl⟩
  · have e1 := congrArg Prod.fst e; simp only at e1; rw [e1, preambleBit_frame]
  · have := byteStart_frame e; rw [this]
  · have := byteStart_frame e; rw [this]
  · unfold afterDataBit; split <;> rfl

/-- The two cases of `TX_STEP` (R142). -/
inductive TxNext (s t : State) : Prop
  | second (hh : s.tx.half = true) (h : t = txTicks (halfPeriod s.tx.cur) (secondHalf s))
  | first (u : State) (b : Bool) (hh : s.tx.half = false) (hn : nextBit (startBit s) = .next (u, b))
      (h : t = txTicks (halfPeriod s.tx.q) (queueBit u b))

theorem txStep_next {s t : State} (h : txStep s = .next t) : TxNext s t := by
  unfold txStep at h
  split at h
  · rename_i hh; cases h; exact .second hh rfl
  · rename_i hh
    split at h
    · rename_i u b hn; cases h; exact .first u b (by simpa using hh) hn rfl
    · cases h
    · cases h

end Sys2Proof.Machine
end

