-- ==== Sys2Proof/Tests/Slice0.lean ====
section
/-! SUPPORT. The model's own tests. First ill-formed terms that `wf` and `legal` refuse; then for every constructor
a word written out from its row of spec/opcode_table.json, with its decoding; then single steps, whose expected
values are those of spec/95_test_vectors.md (V1 to V35); last, for every obligation with hypotheses, states and
operands that meet them. -/

namespace Sys2Proof.Tests

open Sys2Proof Sys2Proof.Machine

/-! ## Well-formedness -/

theorem test_wf_refuses_spd28_short_stop_code : (Instr.spd28S 3 true 1).wf = false := by decide
theorem test_wf_refuses_spd28_long_stop_code : (Instr.spd28L 1234 false 1).wf = false := by decide
theorem test_wf_refuses_spd128_short_stop_byte : (Instr.spd128S 3 false 1).wf = false := by decide
theorem test_wf_refuses_spd128_long_stop_byte : (Instr.spd128L 1234 false 1).wf = false := by decide
theorem test_wf_accepts_spd128_forward_code_one : (Instr.spd128S 3 true 1).wf = true := by decide
theorem test_legal_refuses_short_zero : (Instr.spd28S 0 true 9).legal = false := by decide
theorem test_legal_refuses_long_zero : (Instr.fg1L 0 0).legal = false := by decide
theorem test_legal_refuses_long_10240 : (Instr.spd128L 10240 true 9).legal = false := by decide
theorem test_legal_refuses_accessory_zero : (Instr.acc 0 3 false).legal = false := by decide
theorem test_legal_accepts_long_10239 : (Instr.pomwbL 10239 0 0).legal = true := by decide

/-! ## Decoding: words written out bit by bit from the rows of the opcode table (first byte first) -/

theorem test_decode_idle : decodeTableWord 16 0b1111111100000000 = some (.idle) := by decide +kernel
theorem test_decode_spd28S : decodeTableWord 16 0b0000001101101001 = some (.spd28S 3 true 9) := by decide +kernel
theorem test_decode_spd28L :
    decodeTableWord 24 0b110001001101001001001001 = some (.spd28L 1234 false 9) := by decide +kernel
theorem test_decode_spd128S :
    decodeTableWord 24 0b000000110011111110110011 = some (.spd128S 3 true 51) := by decide +kernel
theorem test_decode_spd128L :
    decodeTableWord 32 0b11000100110100100011111101100101 = some (.spd128L 1234 false 101) := by decide +kernel
theorem test_decode_estop28S : decodeTableWord 16 0b0000001101100001 = some (.estop28S 3 true) := by decide +kernel
theorem test_decode_estop28L :
    decodeTableWord 24 0b110001001101001001000001 = some (.estop28L 1234 false) := by decide +kernel
theorem test_decode_estop128S :
    decodeTableWord 24 0b000000110011111100000001 = some (.estop128S 3) := by decide +kernel
theorem test_decode_estop128L :
    decodeTableWord 32 0b11000100110100100011111100000001 = some (.estop128L 1234) := by decide +kernel
theorem test_decode_fg1S : decodeTableWord 16 0b0000001110011001 = some (.fg1S 3 25) := by decide +kernel
theorem test_decode_fg1L :
    decodeTableWord 24 0b110001001101001010011111 = some (.fg1L 1234 31) := by decide +kernel
theorem test_decode_fg2S : decodeTableWord 16 0b0000001110110101 = some (.fg2S 3 5) := by decide +kernel
theorem test_decode_fg2L :
    decodeTableWord 24 0b110001001101001010111111 = some (.fg2L 1234 15) := by decide +kernel
theorem test_decode_fg3S : decodeTableWord 16 0b0000001110100101 = some (.fg3S 3 5) := by decide +kernel
theorem test_decode_fg3L :
    decodeTableWord 24 0b110001001101001010101111 = some (.fg3L 1234 15) := by decide +kernel
theorem test_decode_acc : decodeTableWord 16 0b1011101011001110 = some (.acc 250 3 false) := by decide +kernel
theorem test_decode_bstop : decodeTableWord 16 0b0000000001000001 = some (.bstop) := by decide +kernel
theorem test_decode_pomwbS :
    decodeTableWord 32 0b00000011111011000001110000000110 = some (.pomwbS 3 28 6) := by decide +kernel
theorem test_decode_pomwbL :
    decodeTableWord 40 0b1100010011010010111011010000000000100110 = some (.pomwbL 1234 256 38) := by decide +kernel
theorem test_decode_pomwbA :
    decodeTableWord 40 0b1000001011111000111011100000000000000001 = some (.pomwbA 2 0 512 1) := by decide +kernel
theorem test_decode_pombitS :
    decodeTableWord 32 0b00000011111010000001110011111101 = some (.pombitS 3 28 true 5) := by decide +kernel
theorem test_decode_pombitL :
    decodeTableWord 40 0b1100010011010010111010000001110011110000 = some (.pombitL 1234 28 false 0) := by decide +kernel
theorem test_decode_pombitA :
    decodeTableWord 40 0b1000001011111000111010000000000011111111 = some (.pombitA 2 0 0 true 7) := by decide +kernel
theorem test_decode_svcReset : decodeTableWord 16 0b0000000000000000 = some (.svcReset) := by decide +kernel
theorem test_decode_svcPgwr : decodeTableWord 16 0b0111110100001000 = some (.svcPgwr 8) := by decide +kernel
theorem test_decode_svcRegwr : decodeTableWord 16 0b0111101100000011 = some (.svcRegwr 3 3) := by decide +kernel
theorem test_decode_svcWrbyte :
    decodeTableWord 24 0b011111010000000010000000 = some (.svcWrbyte 256 128) := by decide +kernel
theorem test_decode_svcVfbyte :
    decodeTableWord 24 0b011101000000011110010001 = some (.svcVfbyte 7 145) := by decide +kernel
theorem test_decode_svcVfbit :
    decodeTableWord 24 0b011110000001110011101111 = some (.svcVfbit 28 7) := by decide +kernel
theorem test_decode_svcWrbit :
    decodeTableWord 24 0b011110000001110011111101 = some (.svcWrbit 28 true 5) := by decide +kernel

/-- Reserved instruction bytes, the extended accessory form, POM verify and register-mode verify are no packet
(30_encoding R104, R111, R113, R114, R120). -/
theorem test_reserved_encodings_are_refused :
    decode .loco [0x03, 0x20] = .error .reservedInstruction ∧
    decode .accessory [0x82, 0x78] = .error .extendedAccessory ∧
    decode .accessory [0x82, 0xF0] = .error .accessoryOff ∧
    decode .pom [0x03, 0xE4, 0x1C, 0x06] = .error .pomVerify ∧
    decode .service [0x74, 0x08] = .error .physicalVerify ∧
    decode .service [0x70, 0x1C, 0x06] = .error .reservedCC ∧
    decodeTableWord 16 0x0320 = none := by decide +kernel

/-! ## Single steps -/

/-- An occupied slot going forward, without functions. -/
def slot (a : BitVec 14) (long fast : Bool) (sp : BitVec 8) : Loco :=
  { addr := a, useLong := long, use128 := fast, speedStep := sp, forward := true, brake := false,
    fn := 0, estop := 0, nudge := 0 }

/-- A machine right after reset and a first copy: slot `l`, one empty slot, the flag true. -/
def world (l : Loco) : State :=
  { State.reset with
    loco := [l, bootSlot emptyBoot]
    shared := { State.reset.shared with free := true } }

/-- The same under another family tag. -/
def worldAt (f : Family) (l : Loco) : State := { world l with enc := { (world l).enc with fam := f } }

/-- A machine in the Function family at group `g`. -/
def functionWorld (g : Fin 3) (m : BitVec 16) (a : BitVec 14) (long : Bool) : State :=
  { world { slot a long false 15 with fn := m } with enc := { fam := .function, li := 0, fi := 0, fg := g } }

/-- A machine with an armed POM request. -/
def pomWorld (k : PomKind) (a : BitVec 14) (cv : BitVec 11) (x : Byte) (st : PomState) (bit : BitVec 3) :
    State :=
  { worldAt .pom (slot 3 false false 15) with
    pom := { State.reset.pom with
      kind := k, addr := a, cv := cv, value := x, bitValue := true, bitPos := bit, state := st, timeout := 8 } }

/-- A machine in service mode in sequencer state `st`. -/
def serviceWorld (st : SvcState) (cv : BitVec 11) (x : Byte) (k : Cursor) : State :=
  { worldAt .service (slot 3 false false 15) with
    svc := { State.reset.svc with
      cv := cv, page := pageOf cv, reg := regOf cv, data := some x, cursor := k, state := st, timeout := 12 }
    power := { State.reset.power with serviceMode := true, busMA := 50 } }

/-- The packet in the shared buffer after one step. -/
def sent (s : State) : Option (List Byte) :=
  match step s with
  | .next t => some (sharedPacket t)
  | .fault _ => none
  | .refused _ => none

/-- One field of the state after one step. -/
def seen {α : Type} (f : State → α) (s : State) : Option α :=
  match step s with
  | .next t => some (f t)
  | .fault _ => none
  | .refused _ => none

/-- One field of the state after one host command. -/
def asked {α : Type} (f : State → α) (c : HostCmd) (s : State) : Option α :=
  match hostStep c s with
  | .next t => some (f t)
  | .fault _ => none
  | .refused _ => none

/-- E1 of 95_test_vectors. -/
theorem test_idle : sent (world (bootSlot emptyBoot)) = some [0xFF, 0x00, 0xFF] := by decide +kernel
/-- P1: after the idle claim the tag is FUNCTION and the index has moved on. -/
theorem test_idle_advances :
    seen (fun t => (t.enc.li, t.enc.fam)) (world (bootSlot emptyBoot)) = some (1, .function) := by decide +kernel
/-- V12. -/
theorem test_spd28S : sent (world (slot 3 false false 15)) = some [0x03, 0x69, 0x6A] := by decide +kernel
/-- V14: a nudging slot shows the top speed, reverse on an even counter, and keeps the index. -/
theorem test_spd28S_nudge :
    seen (fun t => (sharedPacket t, t.loco.map (·.nudge), t.enc.li))
      (world { slot 3 false false 15 with nudge := 2 }) = some ([0x03, 0x5F, 0x5C], [1, 0], 0) := by decide +kernel
/-- V12: a long address whose first byte holds no address bit. -/
theorem test_spd28L : sent (world (slot 128 true false 15)) = some [0xC0, 0x80, 0x69, 0x29] := by decide +kernel
/-- V12. -/
theorem test_spd128S : sent (world (slot 3 false true 50)) = some [0x03, 0x3F, 0xB3, 0x8F] := by decide +kernel
/-- V12: the brake halves the step. -/
theorem test_spd128L_brake :
    sent (world { slot 1234 true true 101 with brake := true }) = some [0xC4, 0xD2, 0x3F, 0xB3, 0x9A] := by
  decide +kernel
/-- V12. -/
theorem test_spd128L_reverse :
    sent (world { slot 10239 true true 85 with forward := false }) = some [0xE7, 0xFF, 0x3F, 0x56, 0x71] := by
  decide +kernel
/-- V13: the stop keeps the direction in the 28-step form. -/
theorem test_estop28S :
    sent (world { slot 3 false false 15 with forward := false, estop := 4 }) = some [0x03, 0x41, 0x42] := by
  decide +kernel
/-- V13. -/
theorem test_estop28L :
    sent (world { slot 1234 true false 15 with estop := 1 }) = some [0xC4, 0xD2, 0x61, 0x77] := by decide +kernel
/-- V14, last row: the stop wins over the nudge, which still counts down. -/
theorem test_estop128S :
    seen (fun t => (sharedPacket t, t.loco.map (·.nudge)))
      (world { slot 3 false true 15 with estop := 4, nudge := 3 }) = some ([0x03, 0x3F, 0x01, 0x3D], [2, 0]) := by
  decide +kernel
/-- V13. -/
theorem test_estop128L :
    sent (world { slot 1234 true true 15 with estop := 1 }) = some [0xC4, 0xD2, 0x3F, 0x01, 0x28] := by decide +kernel
/-- V15. -/
theorem test_fg1S : sent (functionWorld 0 0x0AA5 3 false) = some [0x03, 0x92, 0x91] := by decide +kernel
/-- V15: address 1234 long. -/
theorem test_fg1L : sent (functionWorld 0 0x1FFF 1234 true) = some [0xC4, 0xD2, 0x9F, 0x89] := by decide +kernel
/-- V15. -/
theorem test_fg2S : sent (functionWorld 1 0x0AA5 3 false) = some [0x03, 0xB5, 0xB6] := by decide +kernel
/-- V15: address 1234 long. -/
theorem test_fg2L : sent (functionWorld 1 0x0013 1234 true) = some [0xC4, 0xD2, 0xB0, 0xA6] := by decide +kernel
/-- V15. -/
theorem test_fg3S : sent (functionWorld 2 0x0AA5 3 false) = some [0x03, 0xA5, 0xA6] := by decide +kernel
/-- P1: after group three the group wraps and the index moves on. -/
theorem test_fg3S_wraps :
    seen (fun t => (t.enc.fg, t.enc.fi)) (functionWorld 2 0x0013 3 false) = some (0, 1) := by decide +kernel
/-- V15: address 1234 long. -/
theorem test_fg3L : sent (functionWorld 2 0x1FFF 1234 true) = some [0xC4, 0xD2, 0xAF, 0xB9] := by decide +kernel
/-- V17. -/
theorem test_acc_thrown :
    sent { worldAt .accessory (slot 3 false false 15) with acc := ⟨1000, true⟩ } = some [0xBA, 0xCE, 0x74] := by
  decide +kernel
/-- V17: address 2045 wraps to board 0. -/
theorem test_acc_closed :
    sent { worldAt .accessory (slot 3 false false 15) with acc := ⟨2045, false⟩ } = some [0x80, 0xF9, 0x79] := by
  decide +kernel
/-- V18. -/
theorem test_bstop :
    seen (fun t => (sharedPacket t, t.loco.map (·.estop)))
      (worldAt .estop (slot 3 false false 15)) = some ([0x00, 0x41, 0x41], [5, 5]) := by decide +kernel
/-- D20: the other value of `ESTOP_BCAST_INSTR`. -/
theorem test_bstop_forward :
    sent { worldAt .estop (slot 3 false false 15) with par := { Params.default with estopBcastD := true } }
      = some [0x00, 0x61, 0x61] := by decide +kernel
/-- V18: a current trip is cleared, the smoothed current replaced. -/
theorem test_bstop_recovers :
    seen (fun t => (t.power.trip, t.power.enable, t.power.busMA))
      { worldAt .estop (slot 3 false false 15) with
        power := { State.reset.power with trip := true, busMA := 1800 } } = some (false, true, 0) := by decide +kernel
/-- V19, V20: the packet and the budget after the first claim. -/
theorem test_pomwbS :
    seen (fun t => (sharedPacket t, t.pom.budget)) (pomWorld .short 3 29 6 .byteWrite 0)
      = some ([0x03, 0xEC, 0x1C, 0x06, 0xF5], 3) := by decide +kernel
/-- V20: the fourth claim ends the request and leaves the tag. -/
theorem test_pomwbS_ends :
    seen (fun t => (t.pom.state, t.enc.fam))
      { pomWorld .short 3 29 6 .byteWrite 0 with
        pom := { (pomWorld .short 3 29 6 .byteWrite 0).pom with budget := 1 } } = some (.idle, .pom) := by
  decide +kernel
/-- V19. -/
theorem test_pomwbL : sent (pomWorld .long 1234 29 38 .byteWrite 0)
    = some [0xC4, 0xD2, 0xEC, 0x1C, 0x26, 0xC0] := by decide +kernel
/-- V19. -/
theorem test_pomwbA : sent (pomWorld .accessory 5 513 1 .byteWrite 0)
    = some [0x82, 0xF8, 0xEE, 0x00, 0x01, 0x95] := by decide +kernel
/-- V19. -/
theorem test_pombitS : sent (pomWorld .short 3 29 0 .bitWrite 5)
    = some [0x03, 0xE8, 0x1C, 0xFD, 0x0A] := by decide +kernel
/-- V19. -/
theorem test_pombitL : sent (pomWorld .long 1234 29 0 .bitWrite 5)
    = some [0xC4, 0xD2, 0xE8, 0x1C, 0xFD, 0x1F] := by decide +kernel
/-- V19. -/
theorem test_pombitA : sent (pomWorld .accessory 5 1 0 .bitWrite 7)
    = some [0x82, 0xF8, 0xE8, 0x00, 0xFF, 0x6D] := by decide +kernel
/-- V25, V26: the packet and the budget after the first claim of the direct sequence. -/
theorem test_svcReset :
    seen (fun t => (sharedPacket t, t.shared.longPreamble, t.svc.budget)) (serviceWorld .dStart 29 6 none)
      = some ([0x00, 0x00, 0x00], true, 2) := by decide +kernel
/-- V25. -/
theorem test_svcPgwr : sent (serviceWorld .pgPgWrite 29 6 none) = some [0x7D, 0x08, 0x75] := by decide +kernel
/-- V25. -/
theorem test_svcRegwr : sent (serviceWorld .pgWrite 29 6 none) = some [0x78, 0x06, 0x7E] := by decide +kernel
/-- V25. -/
theorem test_svcWrbyte : sent (serviceWorld .dWrite 257 128 none) = some [0x7D, 0x00, 0x80, 0xFD] := by
  decide +kernel
/-- V25. -/
theorem test_svcVfbyte : sent (serviceWorld .rdVerify 8 145 none) = some [0x74, 0x07, 0x91, 0xE2] := by
  decide +kernel
/-- V25. -/
theorem test_svcVfbit : sent (serviceWorld .rdVerify 29 0 (some 7)) = some [0x78, 0x1C, 0xEF, 0x8B] := by
  decide +kernel
/-- R266: in the claim that completes `RD_FINAL` an acknowledgement sets the bit and the next pass begins. -/
theorem test_svcReset_evaluates_a_bit :
    seen (fun t => (t.svc.data, t.svc.cursor, t.svc.state))
      { serviceWorld .rdFinal 29 0 (some 2) with
        svc := { (serviceWorld .rdFinal 29 0 (some 2)).svc with budget := 1 }
        power := { State.reset.power with serviceMode := true, ackFlag := true, sensorMode := .trigger } }
      = some (some 4, some 1, .rdStart) := by decide +kernel
/-- V25: `SVC.WRBIT`, which no sequence builds, placed from outside. -/
theorem test_svcWrbit :
    sent (State.reset.withFetchWord 24 0x781CFD) = some [0x78, 0x1C, 0xFD, 0x99] := by decide +kernel

/-- V2, first row. -/
theorem test_first_tx_step :
    seen (fun t => (t.tx.pinA, t.tx.pinB, t.tx.period, t.tx.half, t.tx.cnt, t.tx.acc10)) State.reset
      = some (true, false, 58, true, 22, 58) := by decide +kernel
/-- V5: the step that programs a zero at 9976 us sets both flags and leaves 92 in both accumulators. -/
theorem test_tick_carry :
    seen (fun t => (t.tx.acc10, t.tx.acc1, t.shared.tick10, t.shared.tick1))
      { State.reset with tx := { State.reset.tx with acc10 := 9976, acc1 := 976, cur := false, half := true } }
      = some (92, 92, true, true) := by decide +kernel
/-- V24. -/
theorem test_page_and_register :
    (pageOf 29, regOf 29, pageOf 1021, regOf 1021, pageOf 0, regOf 0) = (8, 0, 0, 0, 0, 3) := by decide +kernel
/-- V27: a CV command outside service mode changes nothing. -/
theorem test_service_refused :
    asked (fun t => decide (t = State.reset)) (.writeService 29 6 false false false) State.reset = some true := by
  decide +kernel
/-- V28. -/
theorem test_service_entry :
    asked (fun t => (t.power.serviceMode, t.power.quiescentMA, t.enc.fam)) (.writeService 0 0 false true false)
      { State.reset with power := { State.reset.power with busMA := 40 } } = some (true, 40, .service) := by
  decide +kernel
/-- V29. -/
theorem test_moving_average : (pmTick10 1000 15 State.reset.power).busMA = 200 ∧
    (pmTick10 1000 15 State.reset.power).busVolts = 3 := by decide +kernel
/-- R312: whatever the samples, a negative one too, the flags are consumed; without the flags nothing happens. -/
theorem test_negative_sample :
    asked (fun t => (t.shared.tick10, t.shared.tick1)) (.tickConsume (-1) (-1) (-1))
        { State.reset with shared := { State.reset.shared with tick10 := true, tick1 := true } }
      = some (false, false) ∧
    asked (fun t => decide (t = State.reset)) (.tickConsume (-1) (-1) (-1)) State.reset = some true := by
  decide +kernel
/-- V30: 290 mA is no trip in service mode with baseline 40; above it is. -/
theorem test_service_trip :
    (pmTick10 290 0 { State.reset.power with serviceMode := true, quiescentMA := 40, busMA := 290 }).trip = false ∧
    (pmTick10 291 0 { State.reset.power with serviceMode := true, quiescentMA := 40, busMA := 290 }).trip = true := by
  decide +kernel
/-- V31. -/
theorem test_acknowledgement :
    (pmAckSample 70 { State.reset.power with ackBaseMA := 50, sensorMode := .trigger }).ackFlag = false ∧
    (pmAckSample 85 { State.reset.power with ackBaseMA := 50, sensorMode := .trigger }).ackFlag = true ∧
    (pmAckSample 500 State.reset.power).ackFlag = false := by decide +kernel
/-- V32. -/
theorem test_estop_tick :
    asked (fun t => t.loco.map (·.estop)) .estopTick
      (world { slot 3 false false 15 with estop := 2 }) = some [1, 0] := by decide +kernel
/-- V22: the timeout ends the POM request. -/
theorem test_quarter_second_tick :
    asked (fun t => (t.pom.timeout, t.pom.state, t.pom.budget)) .qtick
      { pomWorld .short 3 29 6 .byteWrite 0 with
        pom := { (pomWorld .short 3 29 6 .byteWrite 0).pom with budget := 3, timeout := 1 } }
      = some (0, .idle, 0) := by decide +kernel

/-! ## States and operands that meet the hypotheses of the obligations -/

/-- A step that shows a field of its next state answers a next state. -/
theorem next_of_seen {α : Type} {f : State → α} {s : State} {v : α} (h : seen f s = some v) :
    ∃ t, step s = .next t ∧ f t = v := by
  unfold seen at h
  cases hs : step s with
  | next t => rw [hs] at h; exact ⟨t, rfl, Option.some.inj h⟩
  | fault e => rw [hs] at h; cases h
  | refused e => rw [hs] at h; cases h

/-- The same for a host command. -/
theorem next_of_asked {α : Type} {f : State → α} {c : HostCmd} {s : State} {v : α}
    (h : asked f c s = some v) : ∃ t, hostStep c s = .next t ∧ f t = v := by
  unfold asked at h
  cases hs : hostStep c s with
  | next t => rw [hs] at h; exact ⟨t, rfl, Option.some.inj h⟩
  | fault e => rw [hs] at h; cases h
  | refused e => rw [hs] at h; cases h

/-- The state with turns scheduled. -/
def turns (es : List Event) (s : State) : State := { s with agenda := es }

/-- The state with the handoff flag false. -/
def busy (s : State) : State := { s with shared := { s.shared with free := false } }

/-- The transmitter at a byte start, about to copy. -/
def atCopy : State := { State.reset with tx := { State.reset.tx with cnt := 9 } }

/-- The transmitter at count `c` of byte `i`. -/
def atBit (c : BitVec 6) (i : BitVec 3) : State :=
  { State.reset with tx := { State.reset.tx with cnt := c, bi := i } }

/-- A service state whose burst has `b` packets to go. -/
def svcBudget (b : BitVec 4) (s : State) : State := { s with svc := { s.svc with budget := b } }

theorem witness_DecodeEncode :
    (Instr.spd128L 10239 true 1).wf = true ∧ (Instr.spd28S 127 false 0).wf = true := by decide
theorem witness_EncodeDecode :
    decode .loco [0x03, 0x69] = .ok (.spd28S 3 true 9) ∧ decode .function [0xFF, 0x00] = .ok .idle := by decide
theorem witness_DispatchBuildsTablePackets :
    assemble (serviceWorld .dWrite 257 255 none) = some (.service, [0x7D, 0x00, 0xFF]) := by decide +kernel
theorem witness_PlacedWordRuns :
    configStop State.reset = none ∧ decodeTableWord 24 0x781CFD = some (.svcWrbit 28 true 5) ∧
      decodeTableWord 32 0x03EC1C06 = some (.pomwbS 3 28 6) := by decide +kernel

theorem witness_StepRunsDecoded_idle_agenda :
    let s := world (slot 3 false false 15)
    configStop s = none ∧ s.shared.free = true ∧ s.agenda = [] ∧ fetch s = some (.loco, [0x03, 0x69]) ∧
      decode .loco [0x03, 0x69] = .ok (.spd28S 3 true 9) ∧ (Instr.spd28S 3 true 9).wf = true := by decide +kernel
theorem witness_StepRunsDecoded_encoder_turn :
    let s := turns [.enc, .tx] (world (slot 3 false false 15))
    configStop s = none ∧ s.shared.free = true ∧ s.agenda = [.enc, .tx] ∧
      fetch s = some (.loco, [0x03, 0x69]) ∧ decode .loco [0x03, 0x69] = .ok (.spd28S 3 true 9) ∧
      (Instr.spd28S 3 true 9).wf = true := by decide +kernel
theorem witness_StepRunsDecoded_given_packet :
    let s := turns [.load .service [0x00, 0x00]] (world (slot 3 false false 15))
    configStop s = none ∧ s.shared.free = true ∧ s.agenda = [.load .service [0x00, 0x00]] ∧
      fetch s = some (.service, [0x00, 0x00]) ∧ decode .service [0x00, 0x00] = .ok .svcReset ∧
      Instr.svcReset.wf = true := by decide +kernel

/-- One state for each turn; the two clauses with the flag false. -/
theorem witness_StepTakesTheTurn :
    let s := busy (world (slot 3 false false 15))
    configStop s = none ∧ s.shared.free = false ∧ s.agenda = [] ∧
      configStop (turns [.enc] s) = none ∧ (turns [.enc] s).shared.free = false ∧
      (turns [.enc] s).agenda = [.enc] ∧
      configStop (turns [.tx] s) = none ∧ (turns [.tx] s).agenda = [.tx] ∧
      configStop (turns [.host .qtick] s) = none ∧ (turns [.host .qtick] s).agenda = [.host .qtick] ∧
      configStop (turns [.reset [] 1 1] s) = none ∧ (turns [.reset [] 1 1] s).agenda = [.reset [] 1 1] := by
  decide +kernel

/-- The parameters of `State.reset` with the lock position `c`. -/
def lockAt (c : BitVec 6) : State := { State.reset with par := { Params.default with lockLong := c } }

theorem witness_ConfigurationRefused_variant_and_capacity :
    ({ State.reset with par := { Params.default with variant := .dcPwm } } : State).par.variant = .dcPwm ∧
      ({ State.reset with loco := [] } : State).par.variant = .dcc ∧
      ({ State.reset with loco := [] } : State).loco = [] := by decide
theorem witness_ConfigurationRefused_lock :
    (lockAt 9).par.variant = .dcc ∧ (lockAt 9).loco ≠ [] ∧ (lockAt 9).par.lockLong.toNat < 10 ∧
      (lockAt 34).par.variant = .dcc ∧ (lockAt 34).loco ≠ [] ∧ 33 < (lockAt 34).par.lockLong.toNat := by decide +kernel
/-- Both ends of the lock range, with a zero count and with a negative current. -/
theorem witness_ConfigurationRefused_range :
    let s : State := { State.reset with par := { Params.default with lockLong := 10, nRdFinal := 0 } }
    let t : State := { State.reset with par := { Params.default with lockLong := 33, safeMA := -1 } }
    s.par.variant = .dcc ∧ s.loco ≠ [] ∧ 10 ≤ s.par.lockLong.toNat ∧ s.par.lockLong.toNat ≤ 33 ∧
      s.par.nRdFinal = 0 ∧
      t.par.variant = .dcc ∧ t.loco ≠ [] ∧ 10 ≤ t.par.lockLong.toNat ∧ t.par.lockLong.toNat ≤ 33 ∧
      t.par.safeMA < 0 := by decide +kernel

/-- Without and with a nudge. -/
theorem witness_LocoPacketCompletes :
    (Instr.estop28L 1234 true).family = .loco ∧ Instr.estop28L 1234 true ≠ .idle ∧
      (world (slot 3 false false 15)).loco[(world (slot 3 false false 15)).enc.li]?
        = some (slot 3 false false 15) ∧
      (world { slot 3 false false 15 with nudge := 1 }).loco[0]?
        = some { slot 3 false false 15 with nudge := 1 } := by decide +kernel
theorem witness_IdlePacketCompletes :
    let s := functionWorld 2 0 0 false
    let t := worldAt .pom (bootSlot emptyBoot)
    s.enc.fam = .function ∧ s.enc.fi < s.loco.length ∧ t.enc.fam ≠ .function ∧ t.enc.li < t.loco.length := by
  decide +kernel
theorem witness_FunctionPacketCompletes :
    (Instr.fg3L 1234 15).family = .function ∧
      (functionWorld 2 0x1FFF 1234 true).enc.fi < (functionWorld 2 0x1FFF 1234 true).loco.length := by decide +kernel
/-- The first claim of a burst and the one that takes the budget to 0. -/
theorem witness_PomPacketCompletes :
    (Instr.pombitA 2 0 0 true 7).family = .pom ∧ (pomWorld .accessory 5 1 0 .bitWrite 7).pom.budget = 0 ∧
      ({ pomWorld .accessory 5 1 0 .bitWrite 7 with
          pom := { (pomWorld .accessory 5 1 0 .bitWrite 7).pom with budget := 1 } } : State).pom.budget ≠ 0 := by
  decide +kernel

theorem witness_ServiceBurstRuns :
    let s := serviceWorld .dWrite 29 6 none
    (Instr.svcWrbyte 28 6).family = .service ∧ built (.svcWrbyte 28 6) = true ∧ s.svc.state = .dWrite ∧
      s.par.nDWrite = 5 ∧ (serviceWorld .pgReset2 29 6 none).svc.state = .pgReset2 ∧
      s.svc.budget = 0 ∧ (5 : BitVec 4) ≠ 1 ∧ (svcBudget 2 s).svc.budget ≠ 0 ∧
      (svcBudget 2 s).svc.budget ≠ 1 := by decide +kernel
/-- The last claim of a burst, and a burst of one packet. -/
theorem witness_ServiceStateAdvances :
    let s := svcBudget 1 (serviceWorld .pgWrite 29 6 none)
    let t : State := { serviceWorld .dReset 29 6 none with par := { Params.default with nDReset := 1 } }
    (Instr.svcRegwr 0 6).family = .service ∧ built (.svcRegwr 0 6) = true ∧
      s.svc.budget = 1 ∧ s.svc.state = .pgWrite ∧
      t.svc.budget = 0 ∧ svcRepeat t.par t.svc.state = 1 ∧ t.svc.state = .dReset := by decide +kernel
theorem witness_VerifyBurstArmsDetector :
    let s := svcBudget 1 (serviceWorld .rdVerify 29 0 (some 7))
    let t : State := { serviceWorld .rdVerify 29 0 (some 7) with par := { Params.default with nRdVerify := 1 } }
    (Instr.svcVfbit 28 7).family = .service ∧ built (.svcVfbit 28 7) = true ∧
      s.svc.state = .rdVerify ∧ s.svc.budget = 1 ∧
      t.svc.state = .rdVerify ∧ t.svc.budget = 0 ∧ t.par.nRdVerify = 1 := by decide +kernel
/-- The first and the last bit pass, and a burst of one packet. -/
theorem witness_BitPassEvaluation :
    let s := svcBudget 1 (serviceWorld .rdFinal 29 0 (some 7))
    let t : State := { serviceWorld .rdFinal 29 0xFE (some 0) with par := { Params.default with nRdFinal := 1 } }
    Instr.svcReset.family = .service ∧ built .svcReset = true ∧
      s.svc.state = .rdFinal ∧ s.svc.cursor = some 7 ∧ s.svc.data = some 0 ∧ s.svc.budget = 1 ∧
      t.svc.state = .rdFinal ∧ t.svc.cursor = some 0 ∧ t.svc.data = some 0xFE ∧ t.svc.budget = 0 ∧
      t.par.nRdFinal = 1 := by decide +kernel
theorem witness_BytePassEvaluation :
    let s := svcBudget 1 (serviceWorld .rdFinal 29 6 none)
    let t : State := { serviceWorld .rdFinal 29 6 none with par := { Params.default with nRdFinal := 1 } }
    Instr.svcReset.family = .service ∧ built .svcReset = true ∧
      s.svc.state = .rdFinal ∧ s.svc.cursor = none ∧ s.svc.budget = 1 ∧
      t.svc.state = .rdFinal ∧ t.svc.cursor = none ∧ t.svc.budget = 0 ∧ t.par.nRdFinal = 1 := by decide +kernel
theorem witness_OutOfRangeStops_indices :
    let s : State := { State.reset with enc := { fam := .loco, li := 2, fi := 2, fg := 0 } }
    (Instr.spd28S 3 true 9).family = .loco ∧ Instr.spd28S 3 true 9 ≠ .idle ∧ s.loco.length ≤ s.enc.li ∧
      (Instr.fg1S 3 25).family = .function ∧ s.loco.length ≤ s.enc.fi := by decide +kernel
theorem witness_OutOfRangeStops_transmitter :
    let s : State := { atCopy with shared := { State.reset.shared with len := 7 } }
    let e : State := { atCopy with shared := { State.reset.shared with len := 0 } }
    (s.tx.half = false ∧ s.tx.cnt = 9 ∧ s.tx.bi = 0 ∧ s.shared.len = 7) ∧
      (e.tx.half = false ∧ e.tx.cnt = 9 ∧ e.tx.bi = 0 ∧ e.shared.len = 0) ∧
      ((atBit 0 0).tx.half = false ∧ (atBit 0 0).tx.cnt = 0) ∧
      ((atBit 1 6).tx.half = false ∧ 1 ≤ (atBit 1 6).tx.cnt.toNat ∧ (atBit 1 6).tx.cnt.toNat ≤ 8 ∧
        6 ≤ (atBit 1 6).tx.bi.toNat) ∧ (atBit 8 7).tx.cnt.toNat ≤ 8 := by decide +kernel

/-- Each tag, with its sequencer idle and running. -/
theorem witness_DispatchChoosesFamily :
    (pomWorld .short 3 29 6 .byteWrite 0).enc.fam = .pom ∧
      assemble (pomWorld .short 3 29 6 .byteWrite 0) = some (.pom, [0x03, 0xEC, 0x1C, 0x06]) ∧
      assemble (worldAt .pom (slot 3 false false 15)) = some (.loco, [0x03, 0x69]) ∧
      (serviceWorld .dStart 29 6 none).enc.fam = .service ∧
      assemble (serviceWorld .dStart 29 6 none) = some (.service, [0x00, 0x00]) ∧
      assemble (serviceWorld .idle 29 6 none) = some (.loco, [0x03, 0x69]) ∧
      assemble (worldAt .estop (slot 3 false false 15)) = some (.estop, [0x00, 0x41]) := by decide +kernel
theorem witness_LocoDispatch :
    let l : Loco := { slot 3 false false 15 with brake := true, nudge := 2 }
    ((world l).enc.fam = .loco ∧ (world l).loco[(world l).enc.li]? = some l) ∧
      ((worldAt .pom l).enc.fam = .pom ∧ (worldAt .pom l).pom.state = .idle ∧ (worldAt .pom l).loco[0]? = some l) ∧
      ((worldAt .service l).enc.fam = .service ∧ (worldAt .service l).svc.state = .idle) ∧
      (7 : BitVec 8) = (if l.brake then BitVec.ofNat 8 (l.speedStep.toNat / 2) else l.speedStep) ∧
      false = (if l.nudge = 0 then l.forward else decide (l.nudge.toNat % 2 = 1)) := by decide +kernel
theorem witness_FunctionDispatch :
    (functionWorld 2 0x0AA5 3 false).enc.fam = .function ∧
      (functionWorld 2 0x0AA5 3 false).loco[(functionWorld 2 0x0AA5 3 false).enc.fi]?
        = some { slot 3 false false 15 with fn := 0x0AA5 } := by decide +kernel
theorem witness_OneShotDispatch :
    (worldAt .accessory (slot 3 false false 15)).enc.fam = .accessory ∧
      (worldAt .estop (slot 3 false false 15)).enc.fam = .estop := by decide
/-- The highest CV, and an accessory address that wraps. -/
theorem witness_PomDispatch :
    let s := pomWorld .accessory 2045 1024 255 .byteWrite 0
    s.enc.fam = .pom ∧ s.pom.state ≠ .idle ∧
      (1023 : BitVec 10).toNat = (s.pom.cv.toNat + 1023) % 1024 ∧
      (0 : BitVec 9).toNat = (s.pom.addr.toNat + 3) % 2048 / 4 ∧
      (0 : BitVec 2).toNat = (s.pom.addr.toNat + 3) % 4 := by decide +kernel
/-- Every state of the sequencer, and both kinds of verify pass. -/
theorem witness_ServiceDispatch :
    ∀ st ∈ [SvcState.pgStart, .pgPgWrite, .pgWrite, .dWrite, .rdVerify, .rdFinal],
      ∀ k ∈ [none, some (7 : BitVec 3), some 0],
        let s := serviceWorld st 1024 255 k
        s.enc.fam = .service ∧ s.svc.data = some 255 ∧
          (1023 : BitVec 10).toNat = (s.svc.cv.toNat + 1023) % 1024 ∧ s.svc.state = st ∧ s.svc.cursor = k := by
  decide +kernel
/-- The ends of the ranges and the first wrapped step (V9). -/
theorem witness_Step28Table :
    ((1 : BitVec 8) ≠ 0 ∧ (255 : BitVec 8) ≠ 0 ∧ 33 ≤ (33 : BitVec 8).toNat) ∧
      step28 1 = 0x02 ∧ step28 28 = 0x1F ∧ step28 33 = 0x02 ∧ step28 255 = 0x01 := by decide
/-- V10. -/
theorem witness_Step128Table : step128 0 = 0 ∧ step128 100 = 0x65 ∧ step128 125 = 0x7E := by decide

theorem witness_PomBurst :
    let s := pomWorld .long 1234 29 38 .byteWrite 0
    noLoad s.agenda = true ∧ s.enc.fam = .pom ∧ s.pom.state ≠ .idle ∧ s.pom.budget = 0 := by decide +kernel
theorem witness_PagedWriteSequence :
    let s := serviceWorld .pgStart 29 6 none
    noLoad s.agenda = true ∧ s.enc.fam = .service ∧ s.svc.state = .pgStart ∧ s.svc.budget = 0 ∧
      s.svc.data = some 6 := by decide +kernel
/-- The default counts with the highest CV, and counts of 1. -/
theorem witness_DirectWriteSequence :
    let s := serviceWorld .dStart 1024 255 none
    let t : State := { s with par := { Params.default with nDStart := 1, nDWrite := 1, nDReset := 1 } }
    noLoad s.agenda = true ∧ s.enc.fam = .service ∧ s.svc.state = .dStart ∧ s.svc.budget = 0 ∧
      s.svc.data = some 255 ∧ (1023 : BitVec 10).toNat = (s.svc.cv.toNat + 1023) % 1024 ∧
      s.par.nDStart = 3 ∧ s.par.nDWrite = 5 ∧ s.par.nDReset = 6 ∧
      t.par.nDStart ≠ 0 ∧ t.par.nDWrite ≠ 0 ∧ t.par.nDReset ≠ 0 := by decide +kernel
theorem witness_UnacknowledgedRead :
    let s := serviceWorld .rdStart 29 0 (some 7)
    noLoad s.agenda = true ∧ s.enc.fam = .service ∧ s.svc.state = .rdStart ∧ s.svc.budget = 0 ∧
      s.svc.cursor = some 7 ∧ s.svc.data = some 0 ∧ s.par.nRdStart = 3 ∧ s.par.nRdVerify = 5 ∧
      s.par.nRdReset = 6 ∧ s.par.nRdFinal = 3 := by decide +kernel

/-- The first and the last preamble position, and the lock position. -/
theorem witness_PreamblePosition :
    9 < (atBit 10 0).tx.cnt.toNat ∧ 9 < (atBit 33 0).tx.cnt.toNat ∧ 9 < (atBit 21 0).tx.cnt.toNat ∧
      (atBit 21 0).tx.cnt = (atBit 21 0).tx.lock := by decide +kernel
theorem witness_ByteStartPosition :
    let s : State := { atCopy with shared := { State.reset.shared with len := 6 } }
    (s.tx.cnt = 9 ∧ s.tx.bi = 0 ∧ s.shared.len ≠ 0 ∧ s.shared.len.toNat ≤ 6) ∧
      ((atBit 9 2).tx.cnt = 9 ∧ (atBit 9 2).tx.bi ≠ 0 ∧ (atBit 9 2).tx.bi ≠ (atBit 9 2).tx.buf.len) := by
  decide +kernel
theorem witness_DataBitPosition :
    (1 ≤ (atBit 1 2).tx.cnt.toNat ∧ (atBit 1 2).tx.cnt.toNat ≤ 8 ∧
        (packetList (atBit 1 2).tx.buf.data)[(atBit 1 2).tx.bi.toNat]? = some 0xFF) ∧
      (1 ≤ (atBit 8 0).tx.cnt.toNat ∧ (atBit 8 0).tx.cnt.toNat ≤ 8 ∧
        (packetList (atBit 8 0).tx.buf.data)[(atBit 8 0).tx.bi.toNat]? = some 0xFF) := by decide +kernel
theorem witness_EndOfPacketPosition :
    (atBit 9 3).tx.cnt = 9 ∧ (atBit 9 3).tx.bi ≠ 0 ∧ (atBit 9 3).tx.bi = (atBit 9 3).tx.buf.len := by decide +kernel
theorem witness_HalfPeriods_second :
    ({ State.reset with tx := { State.reset.tx with half := true } } : State).tx.half = true := rfl
/-- At the lock position. -/
theorem witness_HalfPeriods_first :
    let s := atBit 21 0
    s.tx.half = false ∧ ∃ t, nextBit { s with tx := { s.tx with
        cur := s.tx.q, period := if s.tx.q then 58 else 116, pinA := true, pinB := false,
        half := true } } = .next (t, true) := ⟨rfl, _, rfl⟩
/-- The shortest packet and the longest. -/
theorem witness_PacketOnTheWire :
    let s : State := { atCopy with shared := { State.reset.shared with len := 6, longPreamble := true } }
    (atCopy.tx.cnt = 9 ∧ atCopy.tx.bi = 0 ∧ 3 ≤ atCopy.shared.len.toNat ∧ atCopy.shared.len.toNat ≤ 6) ∧
      (s.tx.cnt = 9 ∧ s.tx.bi = 0 ∧ 3 ≤ s.shared.len.toNat ∧ s.shared.len.toNat ≤ 6) := by decide +kernel
theorem witness_OnlyTheCopyFrees :
    atCopy.shared.free = false ∧ ∃ t, step atCopy = .next t ∧ t.shared.free = true :=
  ⟨rfl, next_of_seen (by decide +kernel)⟩
/-- The last half-period before a 10 ms boundary, and a RESET. -/
theorem witness_EnableOutputFollowsFlag :
    (∃ t, step { State.reset with
        tx := { State.reset.tx with acc10 := 9942 }
        power := { State.reset.power with enable := true } } = .next t ∧ t.tx.pinEN = true) ∧
      ∃ t, step (turns [.reset [] 1 1] { State.reset with tx := { State.reset.tx with pinEN := true } })
        = .next t ∧ t.tx.pinEN = false :=
  ⟨next_of_seen (by decide +kernel), next_of_seen (by decide +kernel)⟩

/-- On the threshold and above it (V30). -/
theorem witness_MonitorTick :
    let p : Power := { State.reset.power with limitMA := 1000, limitVolts := 20 }
    (1000 : Rat) = p.busMA + (5000 - p.busMA) / 5 ∧ (3 : Rat) = p.busVolts + (15 - p.busVolts) / 5 ∧
      ¬ (p.limitMA < 1000 ∨ p.limitVolts < 3) ∧ (p.limitMA < 1800) := by decide +kernel
/-- A zero and a negative sample, both flags set, with and without the 1 ms tick. -/
theorem witness_TickConsumer :
    let s : State := { State.reset with shared := { State.reset.shared with tick10 := true, tick1 := true } }
    ¬ (0 : Rat) < 0 ∧ (-1 : Rat) < 0 ∧ s.shared.tick10 = true ∧ s.shared.tick1 = true ∧ s.par.enable1ms = true ∧
      ({ s with par := { s.par with enable1ms := false } } : State).par.enable1ms = false := by decide +kernel

/-- A machine under a trip. -/
def tripped : State := { world (slot 3 false false 15) with power := { State.reset.power with trip := true } }

/-- The claim of a trip's recovery is due. -/
theorem witness_ModeChanges_claim :
    let s : State := { tripped with enc := { tripped.enc with fam := .estop } }
    claimDue s ∧ fetch s = some (.estop, [0x00, 0x41]) := ⟨⟨rfl, .inl rfl⟩, by decide +kernel⟩
theorem witness_ModeChanges_trip :
    tripped.power.trip = true ∧
      (∃ t, step (turns [.host .tripClear] tripped) = .next t ∧ t.power.trip = false) ∧
      (∃ t, step (turns [.reset [] 1 1] tripped) = .next t ∧ t.power.trip = false) ∧
      ∃ t, step { tripped with enc := { tripped.enc with fam := .estop } } = .next t ∧ t.power.trip = false :=
  ⟨rfl, next_of_seen (by decide +kernel), next_of_seen (by decide +kernel), next_of_seen (by decide +kernel)⟩
theorem witness_ModeChanges_service :
    (∃ t, step (turns [.host (.writeService 0 0 false true false)] State.reset) = .next t ∧
        t.power.serviceMode = true) ∧
      (∃ t, step (turns [.host (.writeService 0 0 false true true)] (serviceWorld .dStart 29 6 none)) = .next t ∧
        t.power.serviceMode = false) ∧
      ∃ t, step (turns [.reset [] 1 1] (serviceWorld .dStart 29 6 none)) = .next t ∧ t.power.serviceMode = false :=
  ⟨next_of_seen (by decide +kernel), next_of_seen (by decide +kernel), next_of_seen (by decide +kernel)⟩
theorem witness_CvCommand :
    State.reset.power.serviceMode = false ∧ (serviceWorld .idle 29 6 none).power.serviceMode = true := by decide
/-- The greatest operands that are not cut. -/
theorem witness_FamilyRequests : 2047 < 2048 ∧ 16383 < 16384 := by decide
theorem witness_TrackPowerCommands : tripped.power.trip = true ∧ State.reset.power.trip = false := by decide
/-- The last slot. -/
theorem witness_LocomotiveCommands :
    (world (slot 3 false false 15)).loco[1]? = some (bootSlot emptyBoot) := by decide +kernel

theorem witness_SingleWriter :
    (∃ t, txStep atCopy = .next t) ∧
      (∃ t, exec (.spd28S 3 true 9) (world (slot 3 false false 15)) = .next t) ∧
      ∃ t, hostStep .qtick (pomWorld .short 3 29 6 .byteWrite 0) = .next t :=
  ⟨⟨_, rfl⟩, ⟨_, rfl⟩, ⟨_, rfl⟩⟩
/-- The claim that appends an event is due. -/
theorem witness_CallbackQueue_claim :
    let s := svcBudget 1 (serviceWorld .rdFinal 29 6 none)
    claimDue s ∧ fetch s = some (.service, [0x00, 0x00]) := ⟨⟨rfl, .inl rfl⟩, by decide +kernel⟩
/-- A queue that waits, a delivery, an event that appears, a RESET. -/
theorem witness_CallbackQueue :
    (∃ t, step { State.reset with cb := [⟨1, none⟩] } = .next t ∧ t.cb = [⟨1, none⟩]) ∧
      (∃ t, step (turns [.host .takeCallback] { State.reset with cb := [⟨1, none⟩, ⟨2, some 3⟩] }) = .next t ∧
        t.cb = [⟨2, some 3⟩]) ∧
      (∃ t, step (svcBudget 1 (serviceWorld .rdFinal 29 6 none)) = .next t ∧ t.cb = [⟨29, none⟩]) ∧
      ∃ t, step (turns [.reset [] 1 1] { State.reset with cb := [⟨1, none⟩] }) = .next t ∧ t.cb = [] :=
  ⟨next_of_seen (by decide +kernel), next_of_seen (by decide +kernel), next_of_seen (by decide +kernel),
    next_of_seen (by decide +kernel)⟩

theorem witness_ResetValues :
    ∃ s, s = State.boot Params.default 2 [⟨3, false, false, 15, true, false, 0⟩] 1000 20 [] ∧
      s.loco = [slot 3 false false 15, bootSlot emptyBoot] := ⟨_, rfl, by decide +kernel⟩
theorem witness_FirstPacketsAfterReset :
    configStop (State.boot Params.default (1 + 1) [⟨3, false, false, 15, true, false, 0⟩] 1000 20
      (List.replicate 29 .tx ++ [.enc])) = none := by decide +kernel
/-- The greatest legal long address under the Loco tag, address 2047 under ACCESSORY, a running request to 10239. -/
theorem witness_ReservedFirstBytesNeverSent :
    AddressesLegal (world (slot 10239 true false 15)) ∧
      assemble (world (slot 10239 true false 15)) = some (.loco, [0xE7, 0xFF, 0x69]) ∧
      AddressesLegal { worldAt .accessory (slot 127 false false 15) with acc := ⟨2047, true⟩ } ∧
      AddressesLegal (pomWorld .long 10239 29 6 .byteWrite 0) ∧
      assemble (pomWorld .long 10239 29 6 .byteWrite 0) = some (.pom, [0xE7, 0xFF, 0xEC, 0x1C, 0x06]) ∧
      noLoad (world (slot 10239 true false 15)).agenda = true ∧ ReservedFree (world (slot 10239 true false 15)) ∧
      ∃ t, step (world (slot 10239 true false 15)) = .next t ∧ sharedPacket t = [0xE7, 0xFF, 0x69, 0x71] :=
  ⟨⟨by decide +kernel, by decide +kernel, by decide +kernel⟩, by decide +kernel,
    ⟨by decide +kernel, by decide +kernel, by decide +kernel⟩,
    ⟨by decide +kernel, by decide +kernel, by decide +kernel⟩, by decide +kernel, rfl,
    ⟨by decide +kernel, by decide +kernel⟩, next_of_seen (by decide +kernel)⟩
theorem witness_ResetInvariant :
    configStop (State.boot Params.default 2 [] 1000 20 [.enc, .tx, .host .qtick]) = none ∧
      noLoad [.enc, .tx, .host .qtick, .reset [] 1 1] = true := by decide +kernel

/-- A machine that owes three more packets of a POM burst (V20, after claim 1). -/
def midBurst (es : List Event) : State :=
  { pomWorld .short 3 29 6 .byteWrite 0 with
    shared := { data := ⟨0x03, 0xEC, 0x1C, 0x06, 0xF5, 0x00⟩, len := 5, longPreamble := false, free := false,
                tick10 := true, tick1 := false }
    pom := { (pomWorld .short 3 29 6 .byteWrite 0).pom with budget := 3 }
    agenda := es }

theorem midBurst_inv (es : List Event) (h : noLoad es = true) : Inv (midBurst es) where
  config := rfl
  turns := h
  buffers := ⟨⟨.pomwbS 3 28 6, rfl, rfl, rfl, rfl⟩, ⟨.idle, rfl, rfl, rfl⟩⟩
  transmitter :=
    { lock := .inl rfl
      count := ⟨show 1 ≤ (23 : Nat) by decide, show (23 : Nat) ≤ 33 by decide⟩
      index := show (0 : Nat) ≤ 3 by decide
      dataIndex := fun _ => show (0 : Nat) < 3 by decide
      preamble := fun _ => rfl
      ticks := ⟨show (0 : Nat) < Config.tick10Us by decide, show (0 : Nat) < Config.tick1Us by decide⟩
      pins := ⟨rfl, .inr ⟨rfl, rfl⟩⟩ }
  indices := ⟨show (0 : Nat) < 2 by decide, show (0 : Nat) < 2 by decide⟩
  power := ⟨fun _ => rfl, le_refl (0 : Rat), le_refl (0 : Rat), le_refl (0 : Rat), le_refl (0 : Rat)⟩
  sequences :=
    { pomBudget := show (3 : Nat) < 4 by decide
      pomIdle := fun e => PomState.noConfusion e
      pomBurst := fun _ _ => ⟨.pomwbS 3 28 6, rfl, rfl⟩
      svcBudget := show (0 : Nat) < 1 by decide
      svcData := fun e => absurd rfl e
      svcMode := fun e => absurd rfl e
      svcBurst := fun e _ => Family.noConfusion e
      undecided := fun e => Bool.noConfusion e }

theorem witness_StepKeepsInvariant :
    Inv (midBurst [.host (.tickConsume 40 15 40), .enc]) ∧
      ∃ t, step (midBurst [.host (.tickConsume 40 15 40), .enc]) = .next t ∧ t.shared.tick10 = false :=
  ⟨midBurst_inv _ rfl, next_of_seen (by decide +kernel)⟩
/-- One state for each of the two cases; the slot number is the first that does not exist. -/
theorem witness_InvariantNeverStops :
    Inv (midBurst [.tx]) ∧ Inv (midBurst [.host (.locoWrite 2 (.estop 1))]) ∧
      (midBurst [.host (.locoWrite 2 (.estop 1))]).loco.length ≤ 2 :=
  ⟨midBurst_inv _ rfl, midBurst_inv _ rfl, by decide⟩

end Sys2Proof.Tests
end

section
/-! PROOFS. The data-bit position of the bit stream (spec/40_transmitter.md R148). -/

namespace Sys2Proof.Machine

/-- At a countdown of 8 or less `TX_NEXT_BIT` is at a data-bit position (R143). -/
theorem nextBit_eq_dataBit {s : State} (h8 : s.tx.cnt.toNat ≤ 8) : nextBit s = dataBit s := by
  have not_preamble : ¬ Config.cntByteStart.toNat < s.tx.cnt.toNat :=
    fun h => absurd (show 9 < s.tx.cnt.toNat from h) (by omega)
  have not_byteStart : s.tx.cnt ≠ Config.cntByteStart :=
    fun h => absurd (show s.tx.cnt.toNat = 9 from congrArg BitVec.toNat h) (by omega)
  rw [nextBit, if_neg not_preamble, if_neg not_byteStart]

/-- A data bit of a byte the private buffer holds, at a countdown that is not 0 (R148). -/
theorem dataBit_of_getElem? {s : State} {b : Byte} (h0 : s.tx.cnt ≠ 0)
    (hb : (packetList s.tx.buf.data)[s.tx.bi.toNat]? = some b) :
    dataBit s = .next (setTx s (afterDataBit s.tx), b.getLsbD (s.tx.cnt.toNat - 1)) := by
  have byte_at : packetByte s.tx.buf.data s.tx.bi.toNat = some b := by rw [packetByte_eq, hb]
  simp only [dataBit, if_neg h0, byte_at]

/-- Settles O36: the countdown excludes the preamble and the byte start, and the byte index excludes the fault of a
data bit. -/
theorem dataBitPosition : Obligations.DataBitPosition := by
  intro s b h1 h8 hb
  have cnt_ne_zero : s.tx.cnt ≠ 0 :=
    fun h => absurd (show s.tx.cnt.toNat = 0 from congrArg BitVec.toNat h) (by omega)
  rw [nextBit_eq_dataBit h8, dataBit_of_getElem? cnt_ne_zero hb]
  rfl

end Sys2Proof.Machine
end

section
/-! PROOFS. The speed transforms of the locomotive packets (spec/42_loco_function.md R193, R194). -/

namespace Sys2Proof.Machine

/-- The mask to 5 bits of R193. -/
theorem toNat_and_mask5 (x : BitVec 8) : (x &&& 0x1F).toNat = x.toNat % 32 := by
  rw [BitVec.toNat_and]
  exact Nat.and_two_pow_sub_one_eq_mod x.toNat 5

/-- The mask to 7 bits of R194. -/
theorem toNat_and_mask7 (x : BitVec 8) : (x &&& 0x7F).toNat = x.toNat % 128 := by
  rw [BitVec.toNat_and]
  exact Nat.and_two_pow_sub_one_eq_mod x.toNat 7

/-- The copy of the low bit into bit 5 (R193): bit 5 of a five-bit value is free, so the copy adds 32. -/
theorem toNat_or_lowBit_shift5 {v : BitVec 8} (hv : v.toNat < 32) :
    (v ||| ((v &&& 1) <<< 5)).toNat = 32 * (v.toNat % 2) + v.toNat := by
  have low_bit : (v &&& 1).toNat = v.toNat % 2 := by
    rw [BitVec.toNat_and]
    exact Nat.and_one_is_mod v.toNat
  have copied_bit : ((v &&& 1) <<< 5).toNat = 2 ^ 5 * (v.toNat % 2) := by
    rw [BitVec.toNat_shiftLeft, low_bit, Nat.shiftLeft_eq]
    omega
  rw [BitVec.toNat_or, copied_bit, Nat.or_comm, ← Nat.two_pow_add_eq_or_of_lt hv]

/-- The rotation of R193: a five-bit value shifted right by one, with its low bit as bit 4. -/
theorem toNat_rotate_lowBit {v : BitVec 8} (hv : v.toNat < 32) :
    ((v ||| ((v &&& 1) <<< 5)) >>> 1).toNat = 16 * (v.toNat % 2) + v.toNat / 2 := by
  rw [BitVec.toNat_ushiftRight, toNat_or_lowBit_shift5 hv, Nat.shiftRight_eq_div_pow]
  omega

/-- `STEP28` of a step other than 0, in arithmetic (R193): the low bit of `s + 3` is field `C`. The sum may pass 255;
the mask makes that invisible, as 32 divides 256. -/
theorem step28_toNat {s : BitVec 8} (hs : s ≠ 0) :
    (step28 s).toNat = 16 * ((s.toNat + 3) % 2) + (s.toNat + 3) % 32 / 2 := by
  have masked : ((s + 3) &&& 0x1F).toNat = (s.toNat + 3) % 32 := by
    rw [toNat_and_mask5, BitVec.toNat_add]
    exact Nat.mod_mod_of_dvd (s.toNat + 3) (show 32 ∣ 2 ^ 8 by decide)
  have same_low_bit : (s.toNat + 3) % 32 % 2 = (s.toNat + 3) % 2 :=
    Nat.mod_mod_of_dvd (s.toNat + 3) (show 2 ∣ 32 by decide)
  have rotated := toNat_rotate_lowBit (v := (s + 3) &&& 0x1F) (by omega)
  rw [masked, same_low_bit] at rotated
  simp only [step28, if_neg hs]
  rw [BitVec.toNat_setWidth, toNat_and_mask5, rotated]
  omega

/-- From 33 on `STEP28` repeats with period 32: neither step is 0, and `s + 3` keeps its residue modulo 32. -/
theorem step28_sub_32 {s : BitVec 8} (hs : 33 ≤ s.toNat) : step28 s = step28 (s - 32) := by
  have earlier : (s - 32).toNat = s.toNat - 32 := BitVec.toNat_sub_of_le (show 32 ≤ s.toNat by omega)
  have ne_zero : s ≠ 0 := fun h => absurd (show s.toNat = 0 from congrArg BitVec.toNat h) (by omega)
  have earlier_ne_zero : s - 32 ≠ 0 :=
    fun h => absurd (show (s - 32).toNat = 0 from congrArg BitVec.toNat h) (by omega)
  apply BitVec.eq_of_toNat_eq
  rw [step28_toNat ne_zero, step28_toNat earlier_ne_zero, earlier]
  omega

/-- `STEP128` of a step other than 0 (R194): the mask makes the carry of 255 + 1 invisible, as 128 divides 256. -/
theorem step128_toNat {s : BitVec 8} (hs : s ≠ 0) : (step128 s).toNat = (s.toNat + 1) % 128 := by
  have masked : ((s + 1) &&& 0x7F).toNat = (s.toNat + 1) % 128 := by
    rw [toNat_and_mask7, BitVec.toNat_add]
    exact Nat.mod_mod_of_dvd (s.toNat + 1) (show 128 ∣ 2 ^ 8 by decide)
  rw [step128, if_neg hs, BitVec.toNat_setWidth, masked]
  exact Nat.mod_mod (s.toNat + 1) 128

/-- Settles O28: the five corner cases evaluate, the rest is the arithmetic form and its period. -/
theorem step28Table : Obligations.Step28Table :=
  ⟨by decide, fun _ => step28_toNat, fun _ => step28_sub_32⟩

/-- Settles O29: step 0 is guarded, every other step is the masked sum; the corner cases evaluate. -/
theorem step128Table : Obligations.Step128Table := by
  refine ⟨fun s => ?_, by decide⟩
  split
  case isTrue hs => rw [hs]; rfl
  case isFalse hs => exact step128_toNat hs

end Sys2Proof.Machine
end

section
/-! PROOFS. Reading and writing packets (spec/30_encoding.md R101 to R120): `decode` after `encode`, family by family. -/

namespace Sys2Proof

/-! ## The readers on the bytes that `encode` writes -/

/-- The stop code belongs to the row `ESTOP28` (R202). -/
theorem readSpeed28S_stop (a : BitVec 7) (d : Bool) : readSpeed28S a (speed28Byte d 1#5) = .ok (.estop28S a d) := by
  simp [readSpeed28S, -BitVec.getLsbD_eq_getElem]

theorem readSpeed28L_stop (a : BitVec 14) (d : Bool) : readSpeed28L a (speed28Byte d 1#5) = .ok (.estop28L a d) := by
  simp [readSpeed28L, -BitVec.getLsbD_eq_getElem]

/-- Every other code belongs to the row `SPD28` (R200). -/
theorem readSpeed28S_speed (a : BitVec 7) (d : Bool) {code : BitVec 5} (h : speed28Free code = true) :
    readSpeed28S a (speed28Byte d code) = .ok (.spd28S a d code) := by
  have not_stop : code ≠ 1#5 := by simpa [speed28Free] using h
  simp [readSpeed28S, not_stop, -BitVec.getLsbD_eq_getElem]

theorem readSpeed28L_speed (a : BitVec 14) (d : Bool) {code : BitVec 5} (h : speed28Free code = true) :
    readSpeed28L a (speed28Byte d code) = .ok (.spd28L a d code) := by
  have not_stop : code ≠ 1#5 := by simpa [speed28Free] using h
  simp [readSpeed28L, not_stop, -BitVec.getLsbD_eq_getElem]

/-- A speed byte of the row `SPD128` is not the stop byte `01` (R201, R203). -/
theorem speed128Byte_ne_stop {d : Bool} {code : BitVec 7} (h : speed128Free d code = true) :
    speed128Byte d code ≠ 0x01#8 := by
  intro stop
  obtain ⟨rfl, rfl⟩ := (speed128Byte_eq_one d code).mp stop
  exact absurd h (by decide)

theorem readSpeed128S_speed (a : BitVec 7) {d : Bool} {code : BitVec 7} (h : speed128Free d code = true) :
    readSpeed128S a (speed128Byte d code) = .ok (.spd128S a d code) := by
  simp [readSpeed128S, speed128Byte_ne_stop h, -BitVec.getLsbD_eq_getElem]

theorem readSpeed128L_speed (a : BitVec 14) {d : Bool} {code : BitVec 7} (h : speed128Free d code = true) :
    readSpeed128L a (speed128Byte d code) = .ok (.spd128L a d code) := by
  simp [readSpeed128L, speed128Byte_ne_stop h, -BitVec.getLsbD_eq_getElem]

/-- The byte write and the bit write of the main track (R111, R112). -/
theorem readPomOp_byte (x : BitVec 2) (data : Byte) : readPomOp (14#4 ++ 3#2 ++ x) data = .ok (.byte data) := by
  simp only [readPomOp, pomOp_high, pomOp_cc, if_true]

theorem readPomOp_bit (x : BitVec 2) (val : Bool) (pos : BitVec 3) :
    readPomOp (14#4 ++ 2#2 ++ x) (writeBitByte val pos) = .ok (.bit val pos) := by
  simp [readPomOp, -BitVec.getLsbD_eq_getElem, -BitVec.reduceAppend]

/-! ## `decode` after `encode`, for each family -/

theorem decodeLoco_encode {i : Instr} (hf : i.family = .loco) (hw : i.wf = true) :
    decodeLoco (encode i) = .ok i := by
  cases i
  case idle => rfl
  case spd28S a d code => simp [encode, shortBytes, decodeLoco, readSpeed28S_speed a d hw]
  case spd28L a d code => simp [encode, longBytes, decodeLoco, readSpeed28L_speed a d hw]
  case spd128S a d code => simp [encode, shortBytes, decodeLoco, readSpeed128S_speed a hw]
  case spd128L a d code => simp [encode, longBytes, decodeLoco, readSpeed128L_speed a hw]
  case estop28S a d => simp [encode, shortBytes, decodeLoco, readSpeed28S_stop]
  case estop28L a d => simp [encode, longBytes, decodeLoco, readSpeed28L_stop]
  case estop128S a => simp [encode, shortBytes, decodeLoco, readSpeed128S]
  case estop128L a => simp [encode, longBytes, decodeLoco, readSpeed128L]
  all_goals cases hf

theorem decodeFunction_encode {i : Instr} (hf : i.family = .function) : decodeFunction (encode i) = .ok i := by
  cases i
  case fg1S a f => simp [encode, shortBytes, decodeFunction, readFunctionS]
  case fg1L a f => simp [encode, longBytes, decodeFunction, readFunctionL]
  case fg2S a f => simp [encode, shortBytes, decodeFunction, readFunctionS]
  case fg2L a f => simp [encode, longBytes, decodeFunction, readFunctionL]
  case fg3S a f => simp [encode, shortBytes, decodeFunction, readFunctionS]
  case fg3L a f => simp [encode, longBytes, decodeFunction, readFunctionL]
  all_goals cases hf

theorem decodeAccessory_encode (board : BitVec 9) (pair : BitVec 2) (r : Bool) :
    decodeAccessory (encode (.acc board pair r)) = .ok (.acc board pair r) := by
  simp [encode, accBytes_eq, decodeAccessory, -BitVec.getLsbD_eq_getElem]

theorem decodePom_encode {i : Instr} (hf : i.family = .pom) : decodePom (encode i) = .ok i := by
  cases i
  case pomwbS a v data => simp [encode, shortBytes, pomCvBytes, decodePom, readPomS, readPomOp_byte, -BitVec.reduceAppend]
  case pomwbL a v data => simp [encode, longBytes, pomCvBytes, decodePom, readPomL, readPomOp_byte, -BitVec.reduceAppend]
  case pomwbA board pair v data =>
    simp [encode, accBytes_eq, pomCvBytes, decodePom, readPomA, readPomOp_byte, -BitVec.getLsbD_eq_getElem, -BitVec.reduceAppend]
  case pombitS a v val pos => simp [encode, shortBytes, pomCvBytes, decodePom, readPomS, readPomOp_bit, -BitVec.reduceAppend]
  case pombitL a v val pos => simp [encode, longBytes, pomCvBytes, decodePom, readPomL, readPomOp_bit, -BitVec.reduceAppend]
  case pombitA board pair v val pos =>
    simp [encode, accBytes_eq, pomCvBytes, decodePom, readPomA, readPomOp_bit, -BitVec.getLsbD_eq_getElem, -BitVec.reduceAppend]
  all_goals cases hf

theorem decodeService_encode {i : Instr} (hf : i.family = .service) : decodeService (encode i) = .ok i := by
  cases i
  case svcReset => rfl
  case svcPgwr page => rfl
  case svcRegwr reg data => simp [encode, decodeService, -BitVec.getLsbD_eq_getElem]
  case svcWrbyte v data => simp [encode, svcCvBytes, decodeService, -BitVec.reduceAppend]
  case svcVfbyte v data => simp [encode, svcCvBytes, decodeService, -BitVec.reduceAppend]
  case svcVfbit v pos => simp [encode, svcCvBytes, decodeService, -BitVec.reduceAppend]
  case svcWrbit v val pos => simp [encode, svcCvBytes, decodeService, -BitVec.reduceAppend, -BitVec.getLsbD_eq_getElem]
  all_goals cases hf

/-- A well-formed packet is read back from its bytes in the family that builds it. -/
theorem decode_encode {i : Instr} (hw : i.wf = true) : decode i.family (encode i) = .ok i := by
  cases hf : i.family with
  | loco => exact decodeLoco_encode hf hw
  | function => exact decodeFunction_encode hf
  | accessory =>
    cases i
    case acc board pair r => exact decodeAccessory_encode board pair r
    all_goals cases hf
  | estop =>
    cases i
    case bstop => rfl
    all_goals cases hf
  | pom => exact decodePom_encode hf
  | service => exact decodeService_encode hf

/-- Settles O2, family by family. -/
theorem decodeEncode : Obligations.DecodeEncode :=
  ⟨fun _ => decode_encode, rfl⟩

end Sys2Proof
end

section
/-! PROOFS. What the decoder accepts (spec/30_encoding.md R101 to R120): `encode` after `decode`, family by family. -/

namespace Sys2Proof

/-- The idle packet is the only packet that begins with 0xFF (R199). -/
theorem decodeLoco_ok {bs : List Byte} {i : Instr} (h : decodeLoco bs = .ok i) :
    encode i = bs ∧ i.wf = true ∧ i.family = .loco := by
  unfold decodeLoco at h
  split at h
  case h_1 b0 b1 =>
    split at h
    case isTrue h0 =>
      split at h <;> cases h
      case isTrue h1 => exact ⟨by rw [h0, h1]; rfl, rfl, rfl⟩
    case isFalse =>
      split at h
      case isTrue short => have := read28S_ok h; rwa [shortBytes_field short] at this
      case isFalse => cases h
  case h_2 b0 b1 b2 =>
    split at h
    case isTrue long => have := read28L_ok h; rwa [longBytes_field b1 long] at this
    case isFalse =>
      split at h
      case isTrue short =>
        split at h
        case isTrue h1 => have := read128S_ok h; rwa [shortBytes_field short, ← h1] at this
        case isFalse => cases h
      case isFalse => cases h
  case h_3 b0 b1 b2 b3 =>
    split at h
    case isTrue long =>
      split at h
      case isTrue h2 => have := read128L_ok h; rwa [longBytes_field b1 long, ← h2] at this
      case isFalse => cases h
    case isFalse => cases h
  case h_4 => cases h

theorem decodeFunction_ok {bs : List Byte} {i : Instr} (h : decodeFunction bs = .ok i) :
    encode i = bs ∧ i.wf = true ∧ (i.family = .function ∨ i = .idle) := by
  unfold decodeFunction at h
  split at h
  case h_1 b0 b1 =>
    split at h
    case isTrue h0 =>
      split at h <;> cases h
      case isTrue h1 => exact ⟨by rw [h0, h1]; rfl, rfl, .inr rfl⟩
    case isFalse =>
      split at h
      case isTrue short =>
        obtain ⟨bytes, wf, family⟩ := readFnS_ok h
        exact ⟨by rw [bytes, shortBytes_field short]; rfl, wf, .inl family⟩
      case isFalse => cases h
  case h_2 b0 b1 b2 =>
    split at h
    case isTrue long =>
      obtain ⟨bytes, wf, family⟩ := readFnL_ok h
      exact ⟨by rw [bytes, longBytes_field b1 long]; rfl, wf, .inl family⟩
    case isFalse => cases h
  case h_3 => cases h

theorem decodeAccessory_ok {bs : List Byte} {i : Instr} (h : decodeAccessory bs = .ok i) :
    encode i = bs ∧ i.wf = true ∧ i.family = .accessory := by
  unfold decodeAccessory at h
  split at h
  case h_1 b0 b1 =>
    split at h
    case isTrue acc =>
      split at h
      case isTrue bit7 =>
        split at h <;> cases h
        case isTrue bit3 => exact ⟨accBytes_fields acc bit7 bit3, rfl, rfl⟩
      case isFalse => cases h
    case isFalse => cases h
  case h_2 => cases h

theorem decodeEstop_ok {bs : List Byte} {i : Instr} (h : decodeEstop bs = .ok i) :
    encode i = bs ∧ i.wf = true ∧ i.family = .estop := by
  unfold decodeEstop at h
  split at h
  case h_1 b0 b1 =>
    split at h
    case isTrue h0 =>
      split at h <;> cases h
      case isTrue h1 => exact ⟨by rw [h0, h1]; rfl, rfl, rfl⟩
    case isFalse => cases h
  case h_2 => cases h

theorem decodePom_ok {bs : List Byte} {i : Instr} (h : decodePom bs = .ok i) :
    encode i = bs ∧ i.wf = true ∧ i.family = .pom := by
  unfold decodePom at h
  split at h
  case h_1 b0 b1 b2 b3 =>
    split at h
    case isTrue short => have := readPomS_ok h; rwa [shortBytes_field short] at this
    case isFalse => cases h
  case h_2 b0 b1 b2 b3 b4 =>
    split at h
    case isTrue long => have := readPomL_ok h; rwa [longBytes_field b1 long] at this
    case isFalse =>
      split at h
      case isTrue acc => exact readPomA_ok acc h
      case isFalse => cases h
  case h_3 => cases h

/-- Two bytes in service mode: a reset packet, a page write or a register write (R110, R113). -/
theorem decodeService_two_ok {b0 b1 : Byte} {i : Instr} (h : decodeService [b0, b1] = .ok i) :
    encode i = [b0, b1] ∧ i.wf = true ∧ i.family = .service := by
  simp only [decodeService] at h
  split at h
  case isTrue h0 =>
    split at h <;> cases h
    case isTrue h1 => exact ⟨by rw [h0, h1]; rfl, rfl, rfl⟩
  case isFalse =>
    split at h
    case isTrue high =>
      split at h
      case isTrue bit3 =>
        split at h
        case isTrue page => cases h; exact ⟨by rw [page]; rfl, rfl, rfl⟩
        case isFalse =>
          split at h <;> cases h
          case isFalse bit2 =>
            exact ⟨by rw [encode, regwr_fields high bit3 (Bool.eq_false_iff.mpr bit2)], rfl, rfl⟩
      case isFalse => cases h
    case isFalse => cases h

/-- Three bytes in service mode: the direct form (R110 to R112). -/
theorem decodeService_three_ok {b0 b1 b2 : Byte} {i : Instr} (h : decodeService [b0, b1, b2] = .ok i) :
    encode i = [b0, b1, b2] ∧ i.wf = true ∧ i.family = .service := by
  simp only [decodeService] at h
  split at h
  case isTrue high =>
    split at h
    case isTrue write => cases h; exact ⟨by rw [encode, svcCv_fields b1 high write]; rfl, rfl, rfl⟩
    case isFalse =>
      split at h
      case isTrue verify => cases h; exact ⟨by rw [encode, svcCv_fields b1 high verify]; rfl, rfl, rfl⟩
      case isFalse =>
        split at h
        case isTrue bit =>
          split at h
          case isTrue k0 =>
            cases h; exact ⟨by rw [encode, svcCv_fields b1 high bit, verifyBit_fields k0]; rfl, rfl, rfl⟩
          case isFalse =>
            split at h <;> cases h
            case isTrue k1 =>
              exact ⟨by rw [encode, svcCv_fields b1 high bit, writeBit_fields k1]; rfl, rfl, rfl⟩
        case isFalse => cases h
  case isFalse => cases h

theorem decodeService_ok {bs : List Byte} {i : Instr} (h : decodeService bs = .ok i) :
    encode i = bs ∧ i.wf = true ∧ i.family = .service := by
  match bs with
  | [_, _] => exact decodeService_two_ok h
  | [_, _, _] => exact decodeService_three_ok h
  | [] | [_] | _ :: _ :: _ :: _ :: _ => cases h

/-- What a byte sequence read as a packet says of the packet. -/
theorem decode_ok {f : Family} {bs : List Byte} {i : Instr} (h : decode f bs = .ok i) :
    encode i = bs ∧ i.wf = true ∧ (i.family = f ∨ (i = .idle ∧ f = .function)) := by
  cases f with
  | loco => exact (decodeLoco_ok h).imp_right (.imp_right .inl)
  | function => exact (decodeFunction_ok h).imp_right (.imp_right (.imp_right (⟨·, rfl⟩)))
  | accessory => exact (decodeAccessory_ok h).imp_right (.imp_right .inl)
  | estop => exact (decodeEstop_ok h).imp_right (.imp_right .inl)
  | pom => exact (decodePom_ok h).imp_right (.imp_right .inl)
  | service => exact (decodeService_ok h).imp_right (.imp_right .inl)

/-- Settles O3, family by family. -/
theorem encodeDecode : Obligations.EncodeDecode := fun _ _ _ => decode_ok

/-- Settles O1: each payload is read by evaluating the decoder. -/
theorem decodeSampleWords : Obligations.DecodeSampleWords := by
  refine ⟨?_, ?_, ?_, ?_, ?_, ?_, ?_, ?_, ?_, ?_, ?_⟩ <;> decide

end Sys2Proof
end

section
/-! PROOFS. What DISPATCH assembles (spec/41_encoder_core.md R173 to R176): for each family the packet that the records
name, and that its payload is that packet's encoding. -/

namespace Sys2Proof.Machine

/-! ## The packet that each family's records name -/

/-- The packet of a slot in the Loco family (R209). -/
def slotPacket (l : Loco) : Instr :=
  if l.addr = 0 then .idle
  else if l.useLong then
    if l.use128 then
      if l.estop ≠ 0 then .estop128L l.addr else .spd128L l.addr (directionBit l) (lineCode128 l)
    else if l.estop ≠ 0 then .estop28L l.addr (directionBit l)
      else .spd28L l.addr (directionBit l) (lineCode28 l)
  else
    if l.use128 then
      if l.estop ≠ 0 then .estop128S (l.addr.setWidth 7)
      else .spd128S (l.addr.setWidth 7) (directionBit l) (lineCode128 l)
    else if l.estop ≠ 0 then .estop28S (l.addr.setWidth 7) (directionBit l)
      else .spd28S (l.addr.setWidth 7) (directionBit l) (lineCode28 l)

/-- The packet of a slot and a function group in the Function family (R210). -/
def groupPacket (l : Loco) (fg : Fin 3) : Instr :=
  if l.addr = 0 then .idle
  else if fg = 0 then
    if l.useLong then .fg1L l.addr (l.fn.extractLsb' 0 1 ++ l.fn.extractLsb' 1 4)
    else .fg1S (l.addr.setWidth 7) (l.fn.extractLsb' 0 1 ++ l.fn.extractLsb' 1 4)
  else if fg = 1 then
    if l.useLong then .fg2L l.addr (l.fn.extractLsb' 5 4) else .fg2S (l.addr.setWidth 7) (l.fn.extractLsb' 5 4)
  else
    if l.useLong then .fg3L l.addr (l.fn.extractLsb' 9 4) else .fg3S (l.addr.setWidth 7) (l.fn.extractLsb' 9 4)

/-- The packet of an accessory command (R220). -/
def accessoryPacket (p : Params) (a : Acc) : Instr :=
  .acc ((a.addr + 3).extractLsb' 2 9) ((a.addr + 3).extractLsb' 0 2) (accOutput p a.thrown)

/-- The packet of a POM request, chosen by its state tag and its address kind (R235). -/
def requestPacket (p : Pom) : Instr :=
  if p.state = .byteWrite then
    match p.kind with
    | .short => .pomwbS (p.addr.setWidth 7) (cvWire p.cv) p.value
    | .long => .pomwbL p.addr (cvWire p.cv) p.value
    | .accessory =>
      .pomwbA ((p.addr.setWidth 11 + 3).extractLsb' 2 9) ((p.addr.setWidth 11 + 3).extractLsb' 0 2) (cvWire p.cv) p.value
  else
    match p.kind with
    | .short => .pombitS (p.addr.setWidth 7) (cvWire p.cv) p.bitValue p.bitPos
    | .long => .pombitL p.addr (cvWire p.cv) p.bitValue p.bitPos
    | .accessory =>
      .pombitA ((p.addr.setWidth 11 + 3).extractLsb' 2 9) ((p.addr.setWidth 11 + 3).extractLsb' 0 2) (cvWire p.cv)
        p.bitValue p.bitPos

/-- The packet of a verify pass: the bit at the cursor, or the byte in the pass with cursor -1 (R255, R256). -/
def verifyPacket (v : Svc) : Instr :=
  match v.cursor with
  | some k => .svcVfbit (cvWire v.cv) k
  | none => .svcVfbyte (cvWire v.cv) (dataByte v.data)

/-- The packet of a service state (R258). -/
def sequencePacket (v : Svc) : Instr :=
  match v.state with
  | .pgPgWrite => .svcPgwr v.page
  | .pgWrite => .svcRegwr v.reg (dataByte v.data)
  | .dWrite => .svcWrbyte (cvWire v.cv) (dataByte v.data)
  | .rdVerify => verifyPacket v
  | .idle | .pgStart | .pgReset | .pgReset2 | .dStart | .dReset | .rdStart | .rdReset | .rdFinal => .svcReset

/-! ## The payload is that packet's encoding -/

/-- The 28-step instruction byte of a slot (R198, R200, R202). -/
theorem speedInstr28_eq (l : Loco) :
    speedInstr28 l = speed28Byte (directionBit l) (if l.estop = 0 then lineCode28 l else 1#5) := by
  unfold speedInstr28
  split
  · exact speed28_code _ _
  · rw [speed28_code]; exact speed28_stop _ _

/-- The 128-step speed byte of a slot (R198, R201, R203). -/
theorem speedByte128_eq (l : Loco) :
    speedByte128 l = if l.estop = 0 then speed128Byte (directionBit l) (lineCode128 l) else 0x01#8 := by
  unfold speedByte128
  split
  · exact speed128_code _ _
  · rfl

theorem locoPayload_eq (l : Loco) : locoPayload l = encode (slotPacket l) := by
  unfold locoPayload slotPacket
  split
  case isTrue => rfl
  case isFalse =>
    rw [locoAddr_eq, speedByte128_eq, speedInstr28_eq]
    by_cases stop : l.estop = 0 <;> cases l.use128 <;> cases l.useLong <;>
      simp only [stop, ne_eq, not_true, not_false_iff, if_true, if_false, Bool.false_eq_true] <;> rfl

/-- The instruction byte of a function group (R206 to R208). -/
theorem functionPayload_eq (l : Loco) (fg : Fin 3) : functionPayload l fg = encode (groupPacket l fg) := by
  unfold functionPayload groupPacket functionInstr
  split
  case isTrue => rfl
  case isFalse =>
    rw [locoAddr_eq, functionGroup1_eq, functionGroup2_eq, functionGroup3_eq]
    match fg with
    | 0 | 1 | 2 => cases l.useLong <;> rfl

theorem accessoryPayload_eq (p : Params) (a : Acc) : accessoryPayload p a = encode (accessoryPacket p a) :=
  accAddr_eq _ _

theorem pomPayload_eq (p : Pom) : pomPayload p = encode (requestPacket p) := by
  have bytes : pomPayload p =
      if p.state = .byteWrite then pomByteWritePayload p else pomBitWritePayload p := by
    unfold pomPayload; cases p.state <;> rfl
  rw [bytes]
  unfold requestPacket pomByteWritePayload pomBitWritePayload pomAddr
  rw [cvBytes_pomByte, cvBytes_pomBit, pomBit_byte, addrShort_eq, addrLong_eq, accAddr_eq]
  split <;> cases p.kind <;> rfl

theorem verifyPayload_eq (v : Svc) : verifyPayload v = encode (verifyPacket v) := by
  unfold verifyPayload verifyPacket
  rw [cvBytes_svcBit, cvBytes_svcVerify]
  cases v.cursor with
  | none => rfl
  | some k => simp only [verifyBit_byte]; rfl

theorem servicePayload_eq (v : Svc) : servicePayload v = encode (sequencePacket v) := by
  unfold servicePayload sequencePacket
  rw [cvBytes_svcWrite, verifyPayload_eq, regwr_byte]
  cases v.state <;> rfl

/-! ## The families of these packets -/

theorem slotPacket_family (l : Loco) : (slotPacket l).family = .loco := by
  unfold slotPacket; (repeat' split) <;> rfl

theorem groupPacket_family (l : Loco) (fg : Fin 3) :
    (groupPacket l fg).family = .function ∨ groupPacket l fg = .idle := by
  unfold groupPacket
  split
  · exact .inr rfl
  · exact .inl (by (repeat' split) <;> rfl)

theorem requestPacket_family (p : Pom) : (requestPacket p).family = .pom := by
  unfold requestPacket; (repeat' split) <;> rfl

theorem sequencePacket_family (v : Svc) : (sequencePacket v).family = .service := by
  unfold sequencePacket verifyPacket; (repeat' split) <;> rfl

/-- No state of the sequencer names `SVC.WRBIT` (R257). -/
theorem sequencePacket_built (v : Svc) : built (sequencePacket v) = true := by
  unfold sequencePacket verifyPacket; (repeat' split) <;> rfl

/-- The packet an assembly is: one of its family, or the idle packet of the Function family; only in the Service
family could it be `SVC.WRBIT`, and there it is not. -/
theorem assemble_encode {s : State} {f : Family} {bs : List Byte} (h : assemble s = some (f, bs)) :
    ∃ i : Instr, encode i = bs ∧ (i.family = f ∨ i = .idle ∧ f = .function) ∧ ∀ v b p, i ≠ .svcWrbit v b p := by
  unfold assemble at h
  split at h
  case h_1 =>
    obtain ⟨l, -, e⟩ := Option.map_eq_some_iff.mp h; cases e
    refine ⟨_, (locoPayload_eq l).symm, .inl (slotPacket_family l), fun v b p e => ?_⟩
    have := slotPacket_family l; rw [e] at this; cases this
  case h_2 =>
    obtain ⟨l, -, e⟩ := Option.map_eq_some_iff.mp h; cases e
    refine ⟨_, (functionPayload_eq l _).symm, (groupPacket_family l _).imp_right (⟨·, rfl⟩), fun v b p e => ?_⟩
    have := groupPacket_family l s.enc.fg; rw [e] at this; rcases this with h | h <;> cases h
  case h_3 =>
    cases h
    exact ⟨_, (accessoryPayload_eq _ _).symm, .inl rfl, fun _ _ _ e => Instr.noConfusion e⟩
  case h_4 =>
    cases h
    exact ⟨.bstop, rfl, .inl rfl, fun _ _ _ e => Instr.noConfusion e⟩
  case h_5 =>
    cases h
    refine ⟨_, (pomPayload_eq _).symm, .inl (requestPacket_family _), fun v b p e => ?_⟩
    have := requestPacket_family s.pom; rw [e] at this; cases this
  case h_6 =>
    cases h
    refine ⟨_, (servicePayload_eq _).symm, .inl (sequencePacket_family _), fun v b p e => ?_⟩
    have := sequencePacket_built s.svc; rw [e] at this; cases this

/-- What DISPATCH assembles is a packet that the encoder builds, read back as that packet. -/
theorem assemble_built {s : State} {f : Family} {bs : List Byte} (h : assemble s = some (f, bs)) :
    ∃ i : Instr, decode f bs = .ok i ∧ encode i = bs ∧ built i = true ∧ i.longPreamble = decide (f = .service) := by
  obtain ⟨i, rfl, family, not_wrbit⟩ := assemble_encode h
  rcases family with family | ⟨rfl, rfl⟩
  · obtain ⟨j, hb, he, hf⟩ := exists_built i not_wrbit
    rw [family] at hf
    exact ⟨j, by rw [← he, ← hf]; exact decode_encode (built_wf hb), he, hb, by rw [longPreamble_eq, hf]⟩
  · exact ⟨.idle, rfl, rfl, rfl, rfl⟩

/-- Settles O4: in every family the payload is the encoding of the packet that the records name. -/
theorem dispatchBuildsTablePackets : Obligations.DispatchBuildsTablePackets := fun _ _ _ => assemble_built

/-! ## DISPATCH by the family tag -/

/-- The assembled family is the one DISPATCH chose. -/
theorem assemble_family {s : State} {f : Family} {bs : List Byte} (h : assemble s = some (f, bs)) :
    f = dispatchFamily s := by
  unfold assemble at h
  split at h <;> rename_i e <;> rw [e]
  case h_1 | h_2 => obtain ⟨l, -, e⟩ := Option.map_eq_some_iff.mp h; cases e; rfl
  all_goals cases h; rfl

/-- Settles O22. -/
theorem dispatchChoosesFamily : Obligations.DispatchChoosesFamily := by
  intro s f bs h
  rw [assemble_family h, dispatchFamily]
  cases s.enc.fam <;> simp

/-- Settles O23: the slot's packet, with the braked step and the direction spelled out. -/
theorem locoDispatch : Obligations.LocoDispatch := by
  intro s l sp d fam slot step dir
  rw [← brakedStep_eq] at step
  rw [← directionBit_eq] at dir
  subst step dir
  rw [assemble, dispatchFamily_loco.mpr fam, slot]
  exact congrArg (fun bs => some (Family.loco, bs)) (locoPayload_eq l)

/-- Settles O24. -/
theorem functionDispatch : Obligations.FunctionDispatch := by
  intro s l fam slot
  rw [assemble, dispatchFamily_function.mpr fam, slot]
  exact congrArg (fun bs => some (Family.function, bs)) (functionPayload_eq l s.enc.fg)

/-- Settles O25: board and pair are the upper nine and the lower two bits of the raw address. -/
theorem oneShotDispatch : Obligations.OneShotDispatch := by
  refine fun s => ⟨fun fam => ⟨_, _, raw_board s.acc.addr, raw_pair s.acc.addr, ?_⟩, fun fam => ?_⟩
  · rw [assemble, show dispatchFamily s = .accessory by rw [dispatchFamily, fam]]
    exact congrArg (fun bs => some (Family.accessory, bs)) (accessoryPayload_eq s.par s.acc)
  · rw [assemble, show dispatchFamily s = .estop by rw [dispatchFamily, fam]]

/-- Settles O26: the CV field, board and pair are determined by their numbers. -/
theorem pomDispatch : Obligations.PomDispatch := by
  intro s v board pair fam running cv hboard hpair
  have cut : (s.pom.addr.setWidth 11).toNat = s.pom.addr.toNat % 2048 := BitVec.toNat_setWidth ..
  obtain rfl : v = cvWire s.pom.cv := BitVec.eq_of_toNat_eq (by rw [cv, cvWire_toNat])
  obtain rfl : board = (s.pom.addr.setWidth 11 + 3).extractLsb' 2 9 :=
    BitVec.eq_of_toNat_eq (by rw [hboard, raw_board, cut]; omega)
  obtain rfl : pair = (s.pom.addr.setWidth 11 + 3).extractLsb' 0 2 :=
    BitVec.eq_of_toNat_eq (by rw [hpair, raw_pair, cut]; omega)
  rw [assemble, dispatchFamily_pom.mpr ⟨fam, running⟩]
  exact congrArg (fun bs => some (Family.pom, bs)) (pomPayload_eq s.pom)

/-- Settles O27: the packet of the running state. -/
theorem serviceDispatch : Obligations.ServiceDispatch := by
  intro s v b fam data cv
  obtain rfl : v = cvWire s.svc.cv := BitVec.eq_of_toNat_eq (by rw [cv, cvWire_toNat])
  have packet : s.svc.state ≠ .idle → assemble s = some (.service, encode (sequencePacket s.svc)) := by
    intro running
    rw [assemble, dispatchFamily_service.mpr ⟨fam, running⟩]
    exact congrArg (fun bs => some (Family.service, bs)) (servicePayload_eq s.svc)
  have known : dataByte s.svc.data = b := by rw [data]; rfl
  refine ⟨fun st => ?_, fun st => ?_, fun st => ?_, fun st => ?_, fun st k cursor => ?_, fun st cursor => ?_⟩
  · have reset : s.svc.state ≠ .idle ∧ sequencePacket s.svc = .svcReset := by
      unfold sequencePacket; revert st; cases s.svc.state <;> simp
    rw [packet reset.1, reset.2]
  all_goals rw [packet (by rw [st]; decide), sequencePacket, st]
  · simp only [known]
  · simp only [known]
  · simp only [verifyPacket, cursor]
  · simp only [verifyPacket, cursor, known]

end Sys2Proof.Machine
end

section
/-! PROOFS. The packets: what a claim that builds one does (spec/42_loco_function.md to spec/45_service_mode.md), as an
equation of the whole next state. -/

namespace Sys2Proof.Machine

/-! ## The one-shot families -/

/-- A claim that publishes a packet and leaves the buffer alone afterwards has published it. -/
theorem published_encode (i : Instr) (lp : Bool) {s t : State} (h : t.shared = (publish (encode i) lp (claim s)).shared) :
    Published (encode i) lp s t :=
  published_of_shared (encode_length_le i) lp s t h

@[simp] theorem finishLoco_shared (l : Loco) (s : State) : (finishLoco l s).shared = s.shared := by
  unfold finishLoco; split <;> rfl

/-- Settles O9: the end of `ENC_LOCO` by whether the slot nudges. -/
theorem locoPacketCompletes : Obligations.LocoPacketCompletes := by
  intro i s l hf hi slot
  refine ⟨finishLoco l (publish (encode i) false (claim s)), ?_, published_encode i _ (by simp), ?_⟩
  · rw [exec_loco hf hi, locoPacket, slot]
  · unfold finishLoco
    by_cases nudge : l.nudge = 0
    · simp only [if_pos nudge]; rfl
    · simp only [if_neg nudge]; rfl

/-- The Function family's index moves on in the claim of the last group (R205). -/
theorem advanceFunction_eq (s : State) : advanceFunction s = { s with enc := { s.enc with
    fg := s.enc.fg + 1
    fi := if s.enc.fg = 2 then (s.enc.fi + 1) % s.loco.length else s.enc.fi
    fam := .loco } } := by
  simp only [advanceFunction, group_wrap, nextIndex]; rfl

/-- A claim of the Function family on a slot that exists. -/
theorem functionPacket_completes (i : Instr) {s : State} (h : s.enc.fi < s.loco.length) :
    ∃ t, functionPacket (encode i) s = .next t ∧ Published (encode i) false s t ∧
      t = { s with
        shared := t.shared
        agenda := s.agenda.tail
        enc := { s.enc with
          fg := s.enc.fg + 1
          fi := if s.enc.fg = 2 then (s.enc.fi + 1) % s.loco.length else s.enc.fi
          fam := .loco } } := by
  refine ⟨advanceFunction (publish (encode i) false (claim s)), ?_, published_encode i _ (by simp), ?_⟩
  · rw [functionPacket, List.getElem?_eq_getElem h]
  · rw [advanceFunction_eq]; rfl

/-- Settles O11. -/
theorem functionPacketCompletes : Obligations.FunctionPacketCompletes := by
  intro i s hf h
  rw [exec_function hf]
  exact functionPacket_completes i h

/-- Settles O10: the tag FUNCTION against all others. -/
theorem idlePacketCompletes : Obligations.IdlePacketCompletes := by
  refine fun s => ⟨fun fam h => ?_, fun fam h => ?_⟩
  · rw [show exec .idle s = functionPacket (encode .idle) s from if_pos fam]
    exact functionPacket_completes .idle h
  · refine ⟨advanceLoco (publish (encode .idle) false (claim s)), ?_, published_encode .idle _ (by simp), rfl⟩
    rw [show exec .idle s = idleLocoPacket (encode .idle) s from if_neg fam, idleLocoPacket,
      List.getElem?_eq_getElem h]

/-- Settles O12. -/
theorem accessoryPacketCompletes : Obligations.AccessoryPacketCompletes :=
  fun _ _ _ _ => ⟨_, rfl, published_encode _ _ rfl, rfl⟩

/-- Settles O20. -/
theorem writeBitPacketCompletes : Obligations.WriteBitPacketCompletes :=
  fun _ _ _ _ => ⟨_, rfl, published_encode _ _ rfl, rfl⟩

/-- Settles O13: the publication with the parameter's byte, then the side effects. -/
theorem broadcastStopCompletes : Obligations.BroadcastStopCompletes :=
  fun s => ⟨_, rfl, published_of_shared
    (show [(0x00 : Byte), if s.par.estopBcastD then 0x61 else 0x41].length ≤ 5 by simp) _ _ _ rfl, rfl⟩

/-! ## The POM burst -/

/-- One call of BURST on the POM budget (R174, R235): four packets to a burst. -/
theorem pomBudget_first : burstBudget (0 : BitVec 3) Config.pomRepeat = 3 := by decide

theorem pomBudget_later {b : BitVec 3} (h : b ≠ 0) : burstBudget b Config.pomRepeat = b - 1 := by
  rw [burstBudget, if_neg h]

theorem sub_one_eq_zero {n : Nat} {b : BitVec n} : b - 1#n = 0#n ↔ b = 1#n := by
  constructor
  · intro h; exact (BitVec.sub_eq_iff_eq_add.mp h).trans (BitVec.zero_add _)
  · rintro rfl; exact BitVec.sub_self _

/-- The first claim of a POM burst. -/
theorem pomPacket_first (bs : List Byte) {s : State} (h : s.pom.budget = 0) :
    pomPacket bs s = .next { s with
      shared := (publish bs false (claim s)).shared
      agenda := s.agenda.tail
      pom := { s.pom with budget := 3 } } := by
  have build : pomBuild bs (claim s) = publish bs false (claim s) := if_pos h
  rw [pomPacket, build, pomCount]
  simp only [publish_pom, claim_pom, h, pomBudget_first]
  rfl

/-- A later claim of a POM burst. -/
theorem pomPacket_later (bs : List Byte) {s : State} (h : s.pom.budget ≠ 0) :
    pomPacket bs s = .next { s with
      shared := { s.shared with free := false }
      agenda := s.agenda.tail
      pom := { s.pom with
        budget := s.pom.budget - 1
        state := if s.pom.budget = 1 then .idle else s.pom.state } } := by
  have build : pomBuild bs (claim s) = claim s := if_neg h
  rw [pomPacket, build, pomCount]
  simp only [claim_pom, pomBudget_later h, show s.pom.budget - 1 = 0 ↔ s.pom.budget = 1 from sub_one_eq_zero]
  rfl

/-- Settles O14: the first claim and a later one. -/
theorem pomPacketCompletes : Obligations.PomPacketCompletes := by
  intro i s hf
  rw [exec_pom hf]
  by_cases first : s.pom.budget = 0
  · rw [pomPacket_first _ first]
    exact ⟨_, rfl, fun _ => ⟨published_encode i _ rfl, rfl⟩, fun h => absurd first h⟩
  · rw [pomPacket_later _ first]
    exact ⟨_, rfl, fun h => absurd h first, fun _ => rfl⟩

/-! ## The service bursts -/

/-- The first claim of a service burst of more than one packet. -/
theorem svcPacket_first (bs : List Byte) {s : State} (h : s.svc.budget = 0) (more : svcRepeat s.par s.svc.state ≠ 1) :
    svcPacket bs s = .next { s with
      shared := (publish bs true (claim s)).shared
      agenda := s.agenda.tail
      svc := { s.svc with budget := svcRepeat s.par s.svc.state - 1 } } := by
  have build : svcBuild bs (claim s) = publish bs true (claim s) := if_pos h
  have open_burst : burstBudget s.svc.budget (svcRepeat s.par s.svc.state) ≠ 0 := by
    rw [h]; exact burstBudget_first _ more
  rw [svcPacket, build, svcCount_more (s := publish bs true (claim s)) open_burst]
  simp only [publish_svc, publish_par, claim_svc, claim_par, h, burstBudget_eq, if_true]
  rfl

/-- A later claim of a service burst that does not complete it. -/
theorem svcPacket_later (bs : List Byte) {s : State} (h : s.svc.budget ≠ 0) (more : s.svc.budget ≠ 1) :
    svcPacket bs s = .next { s with
      shared := { s.shared with free := false }
      agenda := s.agenda.tail
      svc := { s.svc with budget := s.svc.budget - 1 } } := by
  have build : svcBuild bs (claim s) = claim s := if_neg h
  rw [svcPacket, build, svcCount_more (s := claim s) (burstBudget_more _ _ h more)]
  simp only [claim_svc, claim_par, burstBudget_eq, if_neg h]
  rfl

/-- Settles O15: the two claims that do not end a burst move the budget only. -/
theorem serviceBurstRuns : Obligations.ServiceBurstRuns := by
  intro i s n hf hb count
  obtain rfl : n = svcRepeat s.par s.svc.state := by rw [count]; cases s.svc.state <;> rfl
  rw [exec_service hf hb]
  exact ⟨fun first more => ⟨_, svcPacket_first _ first more, published_encode i _ rfl, rfl⟩,
    fun later more => svcPacket_later _ later more⟩

/-- What the completing claim of a service burst leaves in the shared buffer: the packet, freshly published in a burst
of one, otherwise the one in place. -/
structure BurstCompleted (i : Instr) (s t : State) : Prop where
  free : t.shared.free = false
  published : s.svc.budget = 0 → Published (encode i) true s t
  kept : s.svc.budget = 1 → t.shared = { s.shared with free := false }

/-- The state before the exit action, when a claim completes the burst (R174, R260). -/
def burstEnd (bs : List Byte) (s : State) : State :=
  setSvc (svcBuild bs (claim s)) { s.svc with budget := 0 }

/-- The completing claim of a service burst is its exit action after the build. -/
theorem svcPacket_last (bs : List Byte) {s : State}
    (h : s.svc.budget = 1 ∨ s.svc.budget = 0 ∧ svcRepeat s.par s.svc.state = 1) :
    svcPacket bs s = .next (svcExit (burstEnd bs s)) := by
  rw [svcPacket, svcCount_last]
  · simp only [svcBuild_svc, claim_svc]; rfl
  · simp only [svcBuild_svc, svcBuild_par, claim_svc, claim_par]; exact burstBudget_last _ _ h

theorem burstEnd_frame (bs : List Byte) (s : State) : burstEnd bs s = { s with
    shared := (burstEnd bs s).shared, agenda := s.agenda.tail, svc := { s.svc with budget := 0 } } := by
  unfold burstEnd; rw [svcBuild_frame]; rfl

theorem burstCompleted_of_shared {i : Instr} {s t : State} (h : t.shared = (burstEnd (encode i) s).shared) :
    BurstCompleted i s t where
  free := by rw [h]; unfold burstEnd svcBuild; split <;> rfl
  published := fun first => published_encode i _ (by
    rw [h, burstEnd, svcBuild_first (show (claim s).svc.budget = 0 from first)]; rfl)
  kept := fun last => by
    rw [h, burstEnd, svcBuild_running (show (claim s).svc.budget ≠ 0 by rw [claim_svc, last]; decide)]; rfl

/-- Settles O16: a state without an exit action moves to its successor. -/
theorem serviceStateAdvances : Obligations.ServiceStateAdvances := by
  intro i s st' hf hb last pair
  have plain : s.svc.state ≠ .rdVerify ∧ s.svc.state ≠ .rdFinal ∧ svcSuccessor s.svc.state = st' := by
    revert pair; generalize s.svc.state = st; cases st <;> simp [svcSuccessor] <;> exact Eq.symm
  obtain ⟨not_verify, not_final, successor⟩ := plain
  have next : svcExit (burstEnd (encode i) s) =
      setSvc (burstEnd (encode i) s) { s.svc with budget := 0, state := st' } := by
    rw [svcExit_plain (by rw [burstEnd_frame]; exact not_verify) (by rw [burstEnd_frame]; exact not_final),
      ← successor]
    rfl
  have buffer : BurstCompleted i s (setSvc (burstEnd (encode i) s) { s.svc with budget := 0, state := st' }) :=
    burstCompleted_of_shared rfl
  refine ⟨_, by rw [exec_service hf hb, svcPacket_last _ last, next], buffer.free, buffer.published, buffer.kept, ?_⟩
  rw [burstEnd_frame]; rfl

/-- Settles O17: the exit action of `RD_VERIFY`. -/
theorem verifyBurstArmsDetector : Obligations.VerifyBurstArmsDetector := by
  intro i s hf hb state last
  have next : svcExit (burstEnd (encode i) s) = setPower (setSvc (burstEnd (encode i) s)
      { s.svc with budget := 0, state := .rdReset }) (armAck s.power) := by
    rw [burstEnd_frame, svcExit]; simp only [state]
  have buffer : BurstCompleted i s (svcExit (burstEnd (encode i) s)) :=
    burstCompleted_of_shared (by rw [next]; rfl)
  refine ⟨_, by rw [exec_service hf hb, svcPacket_last _ (by rwa [state])], buffer.published, buffer.kept, ?_⟩
  rw [next, burstEnd_frame]; rfl

/-- Bit `k` set: a bit is 1 if it was, or if it is bit `k`. -/
theorem getLsbD_setBit (b : Byte) (k : BitVec 3) (j : Nat) :
    (b ||| (1#8 <<< k.toNat)).getLsbD j = (b.getLsbD j || decide (j = k.toNat)) := by
  have k_lt := k.isLt
  rw [BitVec.getLsbD_or, BitVec.getLsbD_shiftLeft, BitVec.getLsbD_one]
  by_cases eq : j = k.toNat
  · simp [eq, show k.toNat < 8 by omega]
  · have : ¬ (¬ j < k.toNat ∧ j - k.toNat = 0) := by omega
    simp [eq]; omega

/-- Settles O18: the exit action of `RD_FINAL` with a bit at the cursor. -/
theorem bitPassEvaluation : Obligations.BitPassEvaluation := by
  intro i s k b hf hb state cursor data last
  have next : svcExit (burstEnd (encode i) s) = setPower (setSvc (burstEnd (encode i) s)
      { s.svc with
        budget := 0
        data := some (if s.power.ackFlag then b ||| (1#8 <<< k.toNat) else b)
        cursor := cursorBelow k
        state := .rdStart }) (armAck s.power) := by
    rw [burstEnd_frame, svcExit]
    simp only [state, rdEval, cursor, rdEvalBit, data, setCvBit]
    cases s.power.ackFlag <;> rfl
  have buffer : BurstCompleted i s (svcExit (burstEnd (encode i) s)) :=
    burstCompleted_of_shared (by rw [next]; rfl)
  refine ⟨_, if s.power.ackFlag then b ||| (1#8 <<< k.toNat) else b,
    by rw [exec_service hf hb, svcPacket_last _ (by rwa [state])], fun j => ?_, buffer.published, buffer.kept, ?_⟩
  · cases s.power.ackFlag
    · simp
    · simpa using getLsbD_setBit b k j
  · rw [next, burstEnd_frame]; rfl

/-- Settles O19: the exit action of `RD_FINAL` with cursor -1. -/
theorem bytePassEvaluation : Obligations.BytePassEvaluation := by
  intro i s hf hb state cursor last
  have next : svcExit (burstEnd (encode i) s) = emitCallback (setPower (setSvc (burstEnd (encode i) s)
      { s.svc with budget := 0, data := if s.power.ackFlag then s.svc.data else none, state := .idle })
      (disarmAck s.power)) s.svc.cv (if s.power.ackFlag then s.svc.data else none) := by
    rw [burstEnd_frame, svcExit]
    simp only [state, rdEval, cursor, rdEvalByte, verifyResult, signalVerifyFailure]
    cases s.power.ackFlag <;> rfl
  have buffer : BurstCompleted i s (svcExit (burstEnd (encode i) s)) :=
    burstCompleted_of_shared (by rw [next]; rfl)
  refine ⟨_, _, by rw [exec_service hf hb, svcPacket_last _ (by rwa [state])], rfl, buffer.published, buffer.kept, ?_⟩
  rw [next, burstEnd_frame]; rfl

end Sys2Proof.Machine
end

section
/-! PROOFS. The transmitter: the positions of the bit stream, the half-periods and the ticks
(spec/40_transmitter.md R140 to R152). -/

namespace Sys2Proof.Machine

/-! ## `TX_NEXT_BIT` at each position -/

/-- The state after `COPY_SHARED` (R146). -/
def copied (s : State) : State :=
  { s with
    shared := { s.shared with free := true }
    tx := { s.tx with buf := { data := s.shared.data, len := s.shared.len } } }

theorem copyShared_eq (s : State) :
    copyShared s = if 6 < s.shared.len.toNat then .refused .packetTooLong else .next (copied s) := rfl

theorem nextBit_preamble {s : State} (h : 9 < s.tx.cnt.toNat) : nextBit s = .next (preambleBit s) := if_pos h

/-- A countdown of 9 is the byte-start position, past the preamble (R143). -/
theorem past_preamble {s : State} (h : s.tx.cnt = 9) :
    ¬ Config.cntByteStart.toNat < s.tx.cnt.toNat ∧ s.tx.cnt = Config.cntByteStart := by
  rw [h]; decide

/-- From the preamble the byte start copies (R146). -/
theorem nextBit_copy {s : State} (h : s.tx.cnt = 9) (h0 : s.tx.bi = 0) (h6 : s.shared.len.toNat ≤ 6) :
    nextBit s = byteStart (copied s) := by
  rw [nextBit, if_neg (past_preamble h).1, if_pos (past_preamble h).2, if_pos h0, copyShared_eq, if_neg (by omega)]

/-- A packet that is too long is not copied. -/
theorem nextBit_tooLong {s : State} (h : s.tx.cnt = 9) (h0 : s.tx.bi = 0) (h6 : 6 < s.shared.len.toNat) :
    nextBit s = .refused .packetTooLong := by
  rw [nextBit, if_neg (past_preamble h).1, if_pos (past_preamble h).2, if_pos h0, copyShared_eq, if_pos h6]

/-- Inside a packet the byte start does not copy. -/
theorem nextBit_inside {s : State} (h : s.tx.cnt = 9) (h0 : s.tx.bi ≠ 0) : nextBit s = byteStart s := by
  rw [nextBit, if_neg (past_preamble h).1, if_pos (past_preamble h).2, if_neg h0]

theorem byteStart_separator {s : State} (h : s.tx.bi ≠ s.tx.buf.len) : byteStart s = .next (separatorBit s) := if_neg h

theorem byteStart_end {s : State} (h : s.tx.bi = s.tx.buf.len) (h0 : s.tx.bi ≠ 0) :
    byteStart s = .next (endOfPacket s) := by
  rw [byteStart, if_pos h, if_neg (h ▸ h0)]

/-- Settles O34. -/
theorem preamblePosition : Obligations.PreamblePosition := by
  intro s h
  rw [nextBit_preamble h, ← preambleBit_frame]
  rfl

/-- Settles O35: the byte start from the preamble and inside a packet. -/
theorem byteStartPosition : Obligations.ByteStartPosition := by
  refine fun s h => ⟨fun h0 hlen h6 => ?_, fun h0 hend => ?_⟩
  · rw [nextBit_copy h h0 h6, byteStart_separator (show s.tx.bi ≠ s.shared.len from fun e => hlen (e ▸ h0))]
    rfl
  · rw [nextBit_inside h h0, byteStart_separator hend]; rfl

/-- Settles O37. -/
theorem endOfPacketPosition : Obligations.EndOfPacketPosition := by
  intro s h h0 hend
  rw [nextBit_inside h h0, byteStart_end hend h0]; rfl

/-! ## The half-periods and the ticks -/

/-- Settles O38: the two branches of `TX_STEP`. -/
theorem halfPeriods : Obligations.HalfPeriods := by
  refine ⟨fun s half => ?_, fun s t b half next => ?_⟩
  · rw [txStep, if_pos half]; rfl
  · have started : nextBit (startBit s) = .next (t, b) := next
    rw [txStep, if_neg (by rw [half]; decide), started]; rfl

/-- `TX_TICKS` in closed form (R151, R152). -/
theorem txTicks_eq (d : Nat) (s : State) : txTicks d s = { s with
    shared := { s.shared with
      tick10 := s.shared.tick10 || decide (Config.tick10Us ≤ s.tx.acc10 + d)
      tick1 := s.shared.tick1 || (s.par.enable1ms && decide (Config.tick1Us ≤ s.tx.acc1 + d)) }
    tx := { s.tx with
      acc10 := if Config.tick10Us ≤ s.tx.acc10 + d then s.tx.acc10 + d - Config.tick10Us else s.tx.acc10 + d
      pinEN := if Config.tick10Us ≤ s.tx.acc10 + d then s.power.enable else s.tx.pinEN
      acc1 := if s.par.enable1ms then
          (if Config.tick1Us ≤ s.tx.acc1 + d then s.tx.acc1 + d - Config.tick1Us else s.tx.acc1 + d)
        else s.tx.acc1 } } := by
  rw [txTicks, tick1_eq, tick10_eq]
  generalize Config.tick10Us = w
  generalize Config.tick1Us = w'
  rfl

/-- Settles O39. -/
theorem tickAccumulators : Obligations.TickAccumulators := fun d s => txTicks_eq d s

/-- A TX step in its first half-period answers what the next bit does. -/
theorem txStep_of_next {s t : State} {b : Bool} (half : s.tx.half = false) (h : nextBit (startBit s) = .next (t, b)) :
    txStep s = .next (txTicks (halfPeriod s.tx.q) (queueBit t b)) := by
  rw [txStep, if_neg (by rw [half]; decide), h]

theorem txStep_of_fault {s : State} {f : Fault} (half : s.tx.half = false) (h : nextBit (startBit s) = .fault f) :
    txStep s = .fault f := by
  rw [txStep, if_neg (by rw [half]; decide), h]

theorem txStep_of_refused {s : State} {r : Refusal} (half : s.tx.half = false)
    (h : nextBit (startBit s) = .refused r) : txStep s = .refused r := by
  rw [txStep, if_neg (by rw [half]; decide), h]

/-- A copied packet of length 0 ends where it begins (U1). -/
theorem byteStart_empty {s : State} (h : s.tx.bi = s.tx.buf.len) (h0 : s.tx.buf.len = 0) :
    byteStart s = .fault .emptyPacket := by
  rw [byteStart, if_pos h, if_pos h0]

/-- Settles O21: the two families on an index out of range, then the four stops of `TX_NEXT_BIT`. -/
theorem outOfRangeStops : Obligations.OutOfRangeStops := by
  refine ⟨fun i s hf hi h => ?_, fun i s hf h => ?_, fun s half c b len => txStep_of_refused half ?_,
    fun s half c b len => txStep_of_fault half ?_, fun s half c => txStep_of_fault half ?_,
    fun s half h1 h8 b => txStep_of_fault half ?_⟩
  · rw [exec_loco hf hi, locoPacket, List.getElem?_eq_none h]
  · rw [exec_function hf, functionPacket, List.getElem?_eq_none h]
  · exact nextBit_tooLong c b (show 6 < s.shared.len.toNat by rw [len]; decide)
  · have copy : nextBit (startBit s) = byteStart (copied (startBit s)) :=
      nextBit_copy c b (show s.shared.len.toNat ≤ 6 by rw [len]; decide)
    rw [copy]
    exact byteStart_empty (show s.tx.bi = s.shared.len by rw [b, len]) len
  · have data : nextBit (startBit s) = dataBit (startBit s) :=
      nextBit_eq_dataBit (show s.tx.cnt.toNat ≤ 8 by rw [c]; decide)
    rw [data, dataBit, if_pos (show (startBit s).tx.cnt = 0 from c)]
  · have data : nextBit (startBit s) = dataBit (startBit s) := nextBit_eq_dataBit h8
    have cnt_ne_zero : (startBit s).tx.cnt ≠ 0 :=
      fun e => absurd (show s.tx.cnt.toNat = 0 from congrArg BitVec.toNat e) (by omega)
    have no_byte : packetByte (startBit s).tx.buf.data (startBit s).tx.bi.toNat = none := by
      rw [packetByte_eq]; exact List.getElem?_eq_none b
    rw [data, dataBit, if_neg cnt_ne_zero, no_byte]

/-! ## A packet on the wire -/

/-- The transmitter at countdown `c` of byte `k`. -/
def atPosition (s : State) (c : BitVec 6) (k : BitVec 3) : State := setTx s { s.tx with cnt := c, bi := k }

/-- Bits sent one after the other. -/
theorem txBits_append {m n : Nat} {s t u : State} {xs ys : List Bool} (h : txBits m s = .next (t, xs))
    (h' : txBits n t = .next (u, ys)) : txBits (m + n) s = .next (u, xs ++ ys) := by
  induction m generalizing s xs with
  | zero => cases h; simpa using h'
  | succ m ih =>
    rw [Nat.add_right_comm]
    simp only [txBits] at h ⊢
    cases hb : nextBit s with
    | fault f => rw [hb] at h; cases h
    | refused r => rw [hb] at h; cases h
    | next p =>
      obtain ⟨s', b⟩ := p
      rw [hb] at h
      cases hm : txBits m s' with
      | fault f => simp only [hm] at h; cases h
      | refused r => simp only [hm] at h; cases h
      | next q =>
        obtain ⟨t', bs⟩ := q
        simp only [hm] at h
        cases h
        simp only [ih hm]; rfl

/-- One bit is one call of `TX_NEXT_BIT`. -/
theorem txBits_one {s t : State} {b : Bool} (h : nextBit s = .next (t, b)) : txBits 1 s = .next (t, [b]) := by
  simp only [txBits, h]

theorem txBits_cons {n : Nat} {s t u : State} {b : Bool} {bs : List Bool} (h : nextBit s = .next (t, b))
    (h' : txBits n t = .next (u, bs)) : txBits (n + 1) s = .next (u, b :: bs) := by
  simp only [txBits, h, h']

/-- A data bit that is not the last of its byte. -/
theorem nextBit_data {s : State} {c : BitVec 6} {k : BitVec 3} {b : Byte} (h2 : 2 ≤ c.toNat) (h8 : c.toNat ≤ 8)
    (hb : (packetList s.tx.buf.data)[k.toNat]? = some b) :
    nextBit (atPosition s c k) = .next (atPosition s (c - 1) k, b.getLsbD (c.toNat - 1)) := by
  have not_last : c ≠ 1 := fun e => by rw [e] at h2; exact absurd h2 (by decide)
  have bit := dataBitPosition (atPosition s c k) b (show 1 ≤ c.toNat by omega) h8 hb
  rw [show (atPosition s c k).tx.cnt = c from rfl, if_neg not_last] at bit
  exact bit

/-- The last data bit of a byte. -/
theorem nextBit_lastData {s : State} {k : BitVec 3} {b : Byte}
    (hb : (packetList s.tx.buf.data)[k.toNat]? = some b) :
    nextBit (atPosition s 1 k) = .next (atPosition s 9 (k + 1), b.getLsbD 0) :=
  dataBitPosition (atPosition s 1 k) b (show 1 ≤ 1 by decide) (show 1 ≤ 8 by decide) hb

/-- The eight data bits of a byte, most significant first (R148). -/
theorem txBits_byte {s : State} {k : BitVec 3} {b : Byte} (hb : (packetList s.tx.buf.data)[k.toNat]? = some b) :
    txBits 8 (atPosition s 8 k) = .next (atPosition s 9 (k + 1), byteBits b) :=
  txBits_cons (nextBit_data (c := 8) (by decide) (by decide) hb) <|
  txBits_cons (nextBit_data (c := 7) (by decide) (by decide) hb) <|
  txBits_cons (nextBit_data (c := 6) (by decide) (by decide) hb) <|
  txBits_cons (nextBit_data (c := 5) (by decide) (by decide) hb) <|
  txBits_cons (nextBit_data (c := 4) (by decide) (by decide) hb) <|
  txBits_cons (nextBit_data (c := 3) (by decide) (by decide) hb) <|
  txBits_cons (nextBit_data (c := 2) (by decide) (by decide) hb) <|
  txBits_one (nextBit_lastData hb)

/-- The remaining bytes of a packet, from the byte start at index `k` inside the packet on (R147, R148). -/
theorem txBits_bytes (s : State) (ws : List Byte) (k : BitVec 3) (hk : k ≠ 0)
    (hlen : k.toNat + ws.length = s.tx.buf.len.toNat)
    (hws : ∀ j, j < ws.length → (packetList s.tx.buf.data)[k.toNat + j]? = ws[j]?) :
    txBits (9 * ws.length) (atPosition s 9 k) = .next (atPosition s 9 s.tx.buf.len, framedBytes ws) := by
  induction ws generalizing k with
  | nil =>
    obtain rfl : k = s.tx.buf.len := BitVec.eq_of_toNat_eq hlen
    rfl
  | cons b bs ih =>
    have hlen' : k.toNat + (bs.length + 1) = s.tx.buf.len.toNat := hlen
    have len_lt := s.tx.buf.len.isLt
    have next_index : (k + 1).toNat = k.toNat + 1 := by
      rw [BitVec.toNat_add]; exact Nat.mod_eq_of_lt (show k.toNat + 1 < 8 by omega)
    have not_end : k ≠ s.tx.buf.len := fun e => by rw [e] at hlen'; omega
    have first : (packetList s.tx.buf.data)[k.toNat]? = some b := hws 0 (by simp)
    have separator : nextBit (atPosition s 9 k) = .next (atPosition s 8 k, false) := by
      rw [nextBit_inside rfl (show k ≠ 0 from hk), byteStart_separator (show k ≠ s.tx.buf.len from not_end)]; rfl
    have rest : txBits (9 * bs.length) (atPosition s 9 (k + 1)) =
        .next (atPosition s 9 s.tx.buf.len, framedBytes bs) := by
      refine ih (k + 1) (fun e => ?_) (by omega) (fun j hj => ?_)
      · rw [e] at next_index; exact absurd next_index (Nat.succ_ne_zero _).symm
      · rw [next_index, Nat.add_assoc, Nat.add_comm 1 j]; exact hws (j + 1) (by simpa using hj)
    have count : 9 * (b :: bs).length = 8 + 9 * bs.length + 1 := by rw [List.length_cons]; omega
    rw [count]
    exact txBits_cons separator (txBits_append (txBits_byte first) rest)

/-- `n` preamble positions send ones and leave the copy due; of the shared record only the flag may change
(R144, R145). -/
theorem txBits_preamble (n : Nat) (s : State) (h : s.tx.cnt.toNat = 9 + n) :
    ∃ t, txBits n s = .next (t, List.replicate n true) ∧ t.tx.cnt = 9 ∧ t.tx.bi = s.tx.bi ∧
      t.tx.buf = s.tx.buf ∧ t.shared.data = s.shared.data ∧ t.shared.len = s.shared.len := by
  induction n generalizing s with
  | zero => exact ⟨s, rfl, BitVec.eq_of_toNat_eq h, rfl, rfl, rfl, rfl⟩
  | succ n ih =>
    have bit := preamblePosition s (by omega)
    rw [← preambleBit_frame] at bit
    have countdown : (s.tx.cnt - 1).toNat = 9 + n := by
      rw [BitVec.toNat_sub_of_le (show 1 ≤ s.tx.cnt.toNat by omega)]
      exact (by omega : s.tx.cnt.toNat - 1 = 9 + n)
    obtain ⟨t, bits, cnt, bi, buf, data, len⟩ := ih (preambleBit s).1 (by rw [preambleBit_frame]; exact countdown)
    rw [preambleBit_frame] at bi buf data len
    exact ⟨t, txBits_cons bit bits, cnt, bi, buf, data, len⟩

/-- The stop bit leaves the countdown at the first position of the preamble that the shared flag asks for (R149). -/
theorem endOfPacket_countdown (s : State) :
    (endOfPacket s).1.tx.cnt.toNat = 9 + preambleLength s.shared.longPreamble := by
  cases h : s.shared.longPreamble <;> simp [endOfPacket, h, preambleLength] <;> rfl

/-- Settles O40: the copy with the first byte, the other bytes, the stop bit, the preamble. -/
theorem packetOnTheWire : Obligations.PacketOnTheWire := by
  intro s cnt bi h3 h6
  have len6 : (packetList s.shared.data).length = 6 := rfl
  obtain ⟨b, bs, packet⟩ : ∃ b bs, sharedPacket s = b :: bs := by
    cases hp : sharedPacket s with
    | nil =>
      have := congrArg List.length hp
      rw [sharedPacket, List.length_take, List.length_nil] at this; omega
    | cons b bs => exact ⟨b, bs, rfl⟩
  have packet_length : bs.length + 1 = s.shared.len.toNat := by
    have := congrArg List.length packet
    rw [sharedPacket, List.length_take, List.length_cons] at this; omega
  have byte_at (j : Nat) (hj : j < bs.length + 1) : (packetList s.shared.data)[j]? = (b :: bs)[j]? := by
    rw [← packet, sharedPacket, List.getElem?_take_of_lt (by omega)]
  have copy : nextBit s = .next (atPosition (copied s) 8 0, false) := by
    have not_empty : s.shared.len ≠ 0 := fun e => by rw [e] at h3; exact absurd h3 (by decide)
    rw [nextBit_copy cnt bi h6,
      byteStart_separator (show s.tx.bi ≠ s.shared.len from fun e => not_empty (e ▸ bi))]
    have : ({ s.tx with buf := { data := s.shared.data, len := s.shared.len }, cnt := 8 } : Tx) =
      { s.tx with buf := { data := s.shared.data, len := s.shared.len }, cnt := 8, bi := 0 } := by rw [← bi]
    exact congrArg (fun x => Host.Outcome.next (setTx (copied s) x, false)) this
  have first : txBits 8 (atPosition (copied s) 8 0) = .next (atPosition (copied s) 9 1, byteBits b) :=
    txBits_byte (k := 0) (byte_at 0 (by omega))
  have others : txBits (9 * bs.length) (atPosition (copied s) 9 1) =
      .next (atPosition (copied s) 9 s.shared.len, framedBytes bs) := by
    refine txBits_bytes (copied s) bs 1 (by decide) ?_ (fun j hj => ?_)
    · exact (Nat.add_comm 1 bs.length).trans packet_length
    · rw [show (1 : BitVec 3).toNat + j = j + 1 from Nat.add_comm 1 j]
      exact byte_at (j + 1) (by omega)
  have stop : nextBit (atPosition (copied s) 9 s.shared.len) =
      .next (endOfPacket (atPosition (copied s) 9 s.shared.len)) := by
    have not_first : s.shared.len ≠ 0 := fun e => by rw [e] at h3; exact absurd h3 (by decide)
    rw [nextBit_inside rfl not_first, byteStart_end rfl not_first]
  obtain ⟨t, ones, tcnt, tbi, tbuf, tdata, tlen⟩ := txBits_preamble (preambleLength s.shared.longPreamble)
    (endOfPacket (atPosition (copied s) 9 s.shared.len)).1 (endOfPacket_countdown _)
  refine ⟨t, ?_, tcnt, tbi, ?_, tdata, tlen⟩
  · have bits := txBits_cons copy (txBits_append first (txBits_append others (txBits_cons stop ones)))
    rw [packet, frameBits, ← packet_length]
    simp only [framedBytes, List.append_assoc, List.cons_append, List.nil_append]
    convert bits using 2
    omega
  · rw [txPacket, tbuf]; rfl

end Sys2Proof.Machine
end

section
/-! PROOFS. Who writes what (spec/20_memory.md R83, R84): everything a claim can do, the frames of the three agents, and
the rules over all steps that follow from them. -/

namespace Sys2Proof.Machine

/-! ## Everything a claim can do -/

/-- What the claim of a packet did, by the packet's family (R170 to R176). -/
inductive ExecNext (i : Instr) (s t : State) : Prop
  | loco (l : Loco) (hf : i.family = .loco) (hs : s.loco[s.enc.li]? = some l)
      (h : t = finishLoco l (publish (encode i) false (claim s)))
  | idle (l : Loco) (hi : i = .idle) (hs : s.loco[s.enc.li]? = some l)
      (h : t = advanceLoco (publish (encode i) false (claim s)))
  | function (l : Loco) (hf : i.family = .function ∨ i = .idle) (hs : s.loco[s.enc.fi]? = some l)
      (h : t = advanceFunction (publish (encode i) false (claim s)))
  | accessory (hf : i.family = .accessory) (h : t = setFam (publish (encode i) false (claim s)) .loco)
  | estop (hi : i = .bstop)
      (h : t = setFam (estopEffects (publish (estopPayload s.par) false (claim s))) .loco)
  | pom (hf : i.family = .pom) (h : t = pomCount (pomBuild (encode i) (claim s)))
  | service (hf : i.family = .service) (hb : built i = true) (h : t = svcCount (svcBuild (encode i) (claim s)))
  | writeBit (hf : i.family = .service) (hb : built i = false) (h : t = publish (encode i) true (claim s))

theorem functionPacket_next {bs : List Byte} {s t : State} (h : functionPacket bs s = .next t) :
    ∃ l, s.loco[s.enc.fi]? = some l ∧ t = advanceFunction (publish bs false (claim s)) := by
  unfold functionPacket at h
  split at h
  · cases h
  · cases h; exact ⟨_, ‹_›, rfl⟩

theorem locoPacket_next {bs : List Byte} {s t : State} (h : locoPacket bs s = .next t) :
    ∃ l, s.loco[s.enc.li]? = some l ∧ t = finishLoco l (publish bs false (claim s)) := by
  unfold locoPacket at h
  split at h
  · cases h
  · cases h; exact ⟨_, ‹_›, rfl⟩

theorem idleLocoPacket_next {bs : List Byte} {s t : State} (h : idleLocoPacket bs s = .next t) :
    ∃ l, s.loco[s.enc.li]? = some l ∧ t = advanceLoco (publish bs false (claim s)) := by
  unfold idleLocoPacket at h
  split at h
  · cases h
  · cases h; exact ⟨_, ‹_›, rfl⟩

/-- The one service packet that the encoder does not build (R257). -/
theorem eq_writeBit {i : Instr} (hf : i.family = .service) (hb : built i ≠ true) : ∃ v b p, i = .svcWrbit v b p := by
  cases i
  case svcWrbit v b p => exact ⟨v, b, p, rfl⟩
  case svcReset | svcPgwr | svcRegwr | svcWrbyte | svcVfbyte | svcVfbit => exact absurd rfl hb
  all_goals cases hf

theorem exec_next {i : Instr} {s t : State} (h : exec i s = .next t) : ExecNext i s t := by
  cases hf : i.family with
  | loco =>
    by_cases hi : i = .idle
    · subst hi
      have h : execIdle s = .next t := h
      unfold execIdle at h
      split at h
      · obtain ⟨l, slot, e⟩ := functionPacket_next h; exact .function l (.inr rfl) slot e
      · obtain ⟨l, slot, e⟩ := idleLocoPacket_next h; exact .idle l rfl slot e
    · rw [exec_loco hf hi] at h
      obtain ⟨l, slot, e⟩ := locoPacket_next h
      exact .loco l hf slot e
  | function =>
    rw [exec_function hf] at h
    obtain ⟨l, slot, e⟩ := functionPacket_next h
    exact .function l (.inl hf) slot e
  | accessory =>
    cases i
    case acc => exact .accessory hf (Host.Outcome.next.inj h).symm
    all_goals cases hf
  | estop =>
    cases i
    case bstop => exact .estop rfl (Host.Outcome.next.inj h).symm
    all_goals cases hf
  | pom =>
    rw [exec_pom hf] at h
    exact .pom hf (Host.Outcome.next.inj h).symm
  | service =>
    by_cases hb : built i = true
    · rw [exec_service hf hb] at h
      exact .service hf hb (Host.Outcome.next.inj h).symm
    · obtain ⟨v, b, p, rfl⟩ := eq_writeBit hf hb
      exact .writeBit rfl rfl (Host.Outcome.next.inj h).symm

/-! ## The frames of the three agents -/

/-- TX writes its own record and the three flags of the shared record (R83). -/
theorem txStep_frame {s t : State} (h : txStep s = .next t) :
    t = { s with tx := t.tx, shared := { s.shared with
      free := t.shared.free, tick10 := t.shared.tick10, tick1 := t.shared.tick1 } } := by
  cases txStep_next h with
  | second _ h => rw [h, txTicks_frame]; rfl
  | first u b _ hn h => rw [h, txTicks_frame, nextBit_frame hn]; rfl

/-- A slot without the two fields that the encoder may write (R83). -/
def hostFields (l : Loco) : Loco := { l with nudge := 0, estop := 0 }

theorem hostFields_holdLoco {l : Loco} {s : State} (h : s.loco[s.enc.li]? = some l) :
    (holdLoco l s).loco.map hostFields = s.loco.map hostFields := by
  rw [holdLoco_loco, List.map_set]
  obtain ⟨below, rfl⟩ := List.getElem?_eq_some_iff.mp h
  have same : hostFields { s.loco[s.enc.li] with nudge := s.loco[s.enc.li].nudge - 1 } =
    (s.loco.map hostFields)[s.enc.li]'(by simpa using below) := by rw [List.getElem_map]; rfl
  rw [same, List.set_getElem_self]

theorem hostFields_stopAll (v : BitVec 8) (ls : List Loco) : (stopAll v ls).map hostFields = ls.map hostFields := by
  rw [stopAll, List.map_map]; rfl

/-- What a claim of the encoder leaves as it was (R83). -/
structure ClaimFrame (s t : State) : Prop where
  tx : t.tx = s.tx
  acc : t.acc = s.acc
  par : t.par = s.par
  turn : t.agenda = s.agenda.tail
  tick10 : t.shared.tick10 = s.shared.tick10
  tick1 : t.shared.tick1 = s.shared.tick1
  free : t.shared.free = false
  mode : t.power.serviceMode = s.power.serviceMode
  limitMA : t.power.limitMA = s.power.limitMA
  limitVolts : t.power.limitVolts = s.power.limitVolts
  volts : t.power.busVolts = s.power.busVolts
  slots : t.loco.map hostFields = s.loco.map hostFields

theorem exec_frame {i : Instr} {s t : State} (h : exec i s = .next t) : ClaimFrame s t := by
  cases exec_next h with
  | loco l _ slot h =>
    subst h; unfold finishLoco
    split
    · constructor <;> rfl
    · have slots := hostFields_holdLoco (s := publish (encode i) false (claim s)) slot
      exact ⟨rfl, rfl, rfl, rfl, rfl, rfl, rfl, rfl, rfl, rfl, rfl, slots⟩
  | idle l _ _ h | function l _ _ h | accessory _ h | writeBit _ _ h => subst h; constructor <;> rfl
  | estop _ h =>
    have power : t.power = recoverTrip s.par.safeMA s.power := congrArg State.power h
    rw [recoverTrip_frame] at power
    have slots : t.loco.map hostFields = s.loco.map hostFields := by rw [h]; exact hostFields_stopAll _ _
    exact ⟨by rw [h]; rfl, by rw [h]; rfl, by rw [h]; rfl, by rw [h]; rfl, by rw [h]; rfl, by rw [h]; rfl,
      by rw [h]; rfl, by rw [power], by rw [power], by rw [power], by rw [power], slots⟩
  | pom _ h => subst h; unfold pomBuild; split <;> constructor <;> rfl
  | service _ _ h => subst h; rw [svcCount_frame]; unfold svcBuild; split <;> constructor <;> rfl

/-- What a host command leaves as it was (R83, R310). -/
structure HostFrame (s t : State) : Prop where
  tx : t.tx = s.tx
  par : t.par = s.par
  agenda : t.agenda = s.agenda
  slots : t.loco.length = s.loco.length
  shared : t.shared = { s.shared with tick10 := t.shared.tick10, tick1 := t.shared.tick1 }
  enc : t.enc = { s.enc with fam := t.enc.fam }

theorem hostFrame_tickConsume (i10 u10 i1 : Rat) (s : State) : HostFrame s (hTickConsume i10 u10 i1 s) := by
  obtain ⟨a, u, c, -, -, -, e⟩ := hTickConsume_samples i10 u10 i1 s
  rw [e, consumeTick1_frame, consumeTick10_frame]
  exact ⟨rfl, rfl, rfl, rfl, rfl, rfl⟩

theorem hostFrame_writeService (cv x : Nat) (verify enter exit : Bool) (s : State) :
    HostFrame s (hWriteService cv x verify enter exit s) := by
  unfold hWriteService
  split
  · exact ⟨rfl, rfl, rfl, rfl, rfl, rfl⟩
  · split
    · exact ⟨rfl, rfl, rfl, rfl, rfl, rfl⟩
    · split <;> exact ⟨rfl, rfl, rfl, rfl, rfl, rfl⟩

theorem hostStep_frame {c : HostCmd} {s t : State} (h : hostStep c s = .next t) : HostFrame s t := by
  cases c
  case locoWrite i w =>
    obtain ⟨l, -, rfl⟩ := hLocoWrite_next h
    exact ⟨rfl, rfl, rfl, List.length_set, rfl, rfl⟩
  case tickConsume i10 u10 i1 => cases h; exact hostFrame_tickConsume ..
  case estopTick => cases h; exact ⟨rfl, rfl, rfl, List.length_map .., rfl, rfl⟩
  case writeService cv x verify enter exit => cases h; exact hostFrame_writeService ..
  case power on => cases h; unfold hPower; split <;> exact ⟨rfl, rfl, rfl, rfl, rfl, rfl⟩
  case qtick => cases h; rw [svcQtick_frame, pomQtick_frame]; exact ⟨rfl, rfl, rfl, rfl, rfl, rfl⟩
  all_goals cases h; exact ⟨rfl, rfl, rfl, rfl, rfl, rfl⟩

/-- Settles O53: the three frames. -/
theorem singleWriter : Obligations.SingleWriter :=
  ⟨fun _ _ h => txStep_frame h,
    fun _ _ _ h => have f := exec_frame h
      ⟨f.tx, f.acc, f.par, f.turn, f.tick10, f.tick1, f.free, f.mode, f.limitMA, f.limitVolts, f.volts, f.slots⟩,
    fun _ _ _ h => have f := hostStep_frame h
      ⟨f.tx, f.par, f.agenda, f.slots, f.shared, f.enc⟩⟩

/-! ## The handoff flag and the enable output -/

theorem byteStart_shared {s t : State} {b : Bool} (h : byteStart s = .next (t, b)) :
    t.shared = s.shared ∧ t.tx.buf = s.tx.buf := by
  rw [byteStart_frame h]; exact ⟨rfl, rfl⟩

/-- `TX_NEXT_BIT` sets the flag only where it copies (R146). -/
theorem nextBit_frees {s t : State} {b : Bool} (h : nextBit s = .next (t, b)) (before : s.shared.free = false)
    (after : t.shared.free = true) :
    s.tx.cnt = 9 ∧ s.tx.bi = 0 ∧ t.tx.buf = { data := s.shared.data, len := s.shared.len } := by
  rcases nextBit_next h with ⟨_, e⟩ | ⟨cnt, bi, _, e⟩ | ⟨_, _, e⟩ | ⟨_, _, _, rfl⟩
  · have flag : t.shared.free = (preambleBit s).1.shared.free := congrArg (fun p => p.1.shared.free) e
    rw [after, preambleBit_frame] at flag
    simp only [before, ite_self] at flag
    cases flag
  · exact ⟨cnt, bi, (byteStart_shared e).2⟩
  · rw [(byteStart_shared e).1, before] at after; cases after
  · have : s.shared.free = true := after
    rw [before] at this; cases this

/-- Settles O41: a claim, a host command and a RESET never set the flag, and TX sets it only by the copy. -/
theorem onlyTheCopyFrees : Obligations.OnlyTheCopyFrees := by
  intro s t h before after
  cases step_next h with
  | tx turn h =>
    cases txStep_next h with
    | second _ e => rw [e, txTicks_frame] at after; exact absurd (before.symm.trans after) Bool.false_ne_true
    | first u b half hn e =>
      have u_after : u.shared.free = true := by rw [e, txTicks_frame] at after; exact after
      obtain ⟨cnt, bi, buf⟩ := nextBit_frees hn before u_after
      exact ⟨turn, half, cnt, bi, by rw [e, txTicks_frame]; exact buf⟩
  | claim i f bs _ _ _ _ h => rw [(exec_frame h).free] at after; cases after
  | pass _ _ h => rw [h, popTurn_shared, before] at after; cases after
  | host c es _ h =>
    rw [(hostStep_frame h).shared] at after
    exact absurd (before.symm.trans after) Bool.false_ne_true
  | reset table iLim vLim es _ h => rw [h] at after; cases after

/-- The ticks after a half-period of `d` change the enable output only at a 10 ms boundary, to the requested state
(R152). -/
theorem txTicks_changes_pinEN {d : Nat} {s u t : State} (h : t = txTicks d u) (acc10 : u.tx.acc10 = s.tx.acc10)
    (pinEN : u.tx.pinEN = s.tx.pinEN) (power : u.power = s.power) (period : u.tx.period = d)
    (changed : t.tx.pinEN ≠ s.tx.pinEN) :
    10000 ≤ s.tx.acc10 + t.tx.period ∧ t.tx.pinEN = s.power.enable ∧ t.shared.tick10 = true := by
  rw [txTicks_eq] at h
  subst h
  by_cases reached : Config.tick10Us ≤ u.tx.acc10 + d
  · refine ⟨by rw [← acc10]; exact period ▸ reached, ?_, ?_⟩
    · simp only [reached, if_true, power]
    · simp only [reached, decide_true, Bool.or_true]
  · exact absurd (by simp only [reached, if_false, pinEN]) changed

/-- Settles O42: of the agents only TX writes the output, at its 10 ms boundary; RESET writes everything. -/
theorem enableOutputFollowsFlag : Obligations.EnableOutputFollowsFlag := by
  intro s t h changed
  cases step_next h with
  | tx turn h =>
    refine .inl ⟨turn, ?_⟩
    cases txStep_next h with
    | second _ e => exact txTicks_changes_pinEN e rfl rfl rfl rfl changed
    | first u b _ hn e =>
      have frame := nextBit_frame hn
      exact txTicks_changes_pinEN e (by rw [frame]; rfl) (by rw [frame]; rfl) (by rw [frame]; rfl) (by rw [frame]; rfl)
        changed
  | claim i f bs _ _ _ _ h => exact absurd (congrArg Tx.pinEN (exec_frame h).tx) changed
  | pass _ _ h => exact absurd (by rw [h]; rfl) changed
  | host c es _ h => exact absurd (congrArg Tx.pinEN (hostStep_frame h).tx) changed
  | reset table iLim vLim es turn _ => exact .inr ⟨table, iLim, vLim, es, turn⟩

end Sys2Proof.Machine
end

section
/-! PROOFS. The parts of the invariant: what each one depends on, and the configuration and reset cases
(spec/10_state.md R44, spec/00_scope.md R7). -/

namespace Sys2Proof.Machine

/-! ## The configuration -/

/-- What a legal configuration gives (R7, R145, R174, U2 to U4). -/
structure ConfigLegal (s : State) : Prop where
  slots : s.loco ≠ []
  lockLong : 10 ≤ s.par.lockLong.toNat ∧ s.par.lockLong.toNat ≤ 33
  repeats : repeatsOk s.par = true
  safe : 0 ≤ s.par.safeMA

theorem configLegal_of_none {s : State} (h : configStop s = none) : ConfigLegal s := by
  unfold configStop at h
  split at h
  · cases h
  split at h
  · cases h
  rename_i slots
  split at h
  · cases h
  rename_i lock
  split at h
  · cases h
  rename_i ranges
  rw [Bool.not_eq_true, Bool.not_eq_false'] at lock ranges
  obtain ⟨repeats, opens⟩ := (Bool.and_eq_true _ _).mp ranges
  obtain ⟨low, high⟩ := (Bool.and_eq_true _ _).mp lock
  exact ⟨slots, ⟨of_decide_eq_true low, of_decide_eq_true high⟩, repeats,
    of_decide_eq_true ((Bool.and_eq_true _ _).mp opens).2⟩

/-- Every state's burst has at least one packet (R174). -/
theorem svcRepeat_pos {s : State} (h : configStop s = none) (st : SvcState) : 0 < (svcRepeat s.par st).toNat := by
  have counts := (configLegal_of_none h).repeats
  simp only [repeatsOk, Bool.and_eq_true, bne_iff_ne, ne_eq] at counts
  obtain ⟨⟨⟨⟨⟨⟨dStart, dWrite⟩, dReset⟩, rdStart⟩, rdVerify⟩, rdReset⟩, rdFinal⟩ := counts
  have pos {n : BitVec 4} (h : n ≠ 0) : 0 < n.toNat := Nat.pos_of_ne_zero fun e => h (BitVec.eq_of_toNat_eq e)
  cases st
  case dStart => exact pos dStart
  case dWrite => exact pos dWrite
  case dReset => exact pos dReset
  case rdStart => exact pos rdStart
  case rdVerify => exact pos rdVerify
  case rdReset => exact pos rdReset
  case rdFinal => exact pos rdFinal
  all_goals exact Nat.le_of_ble_eq_true rfl

/-! ## What each part depends on -/

theorem BufferInv.congr {s t : State} (h : BufferInv s) (packet : sharedPacket t = sharedPacket s)
    (len : t.shared.len = s.shared.len) (long : t.shared.longPreamble = s.shared.longPreamble)
    (buf : t.tx.buf = s.tx.buf) : BufferInv t := by
  obtain ⟨⟨i, hi⟩, ⟨j, hj⟩⟩ := h
  refine ⟨⟨i, ?_⟩, ⟨j, ?_⟩⟩
  · rw [packet, len, long]; exact hi
  · rw [show txPacket t = txPacket s by rw [txPacket, buf]; rfl, buf]; exact hj

theorem TxInv.congr {s t : State} (h : TxInv s) (tx : t.tx = s.tx) (par : t.par = s.par) : TxInv t := by
  obtain ⟨lock, count, index, dataIndex, preamble, ticks, pins⟩ := h
  constructor <;> rw [tx]
  case lock => rw [par]; exact lock
  all_goals assumption

theorem IndexInv.congr {s t : State} (h : IndexInv s) (li : t.enc.li = s.enc.li) (fi : t.enc.fi = s.enc.fi)
    (slots : t.loco.length = s.loco.length) : IndexInv t :=
  ⟨by rw [li, slots]; exact h.loco, by rw [fi, slots]; exact h.function⟩

/-- The power part reads six fields. -/
theorem PowerInv.congr {s t : State} (h : PowerInv s) (trip : t.power.trip = true → t.power.enable = false)
    (current : t.power.busMA = s.power.busMA) (volts : t.power.busVolts = s.power.busVolts)
    (quiescent : t.power.quiescentMA = s.power.quiescentMA) (ackBase : t.power.ackBaseMA = s.power.ackBaseMA) :
    PowerInv t :=
  ⟨trip, current ▸ h.current, volts ▸ h.volts, quiescent ▸ h.quiescent, ackBase ▸ h.ackBase⟩

theorem PowerInv.of_eq {s t : State} (h : PowerInv s) (e : t.power = s.power) : PowerInv t :=
  h.congr (by rw [e]; exact h.trip) (by rw [e]) (by rw [e]) (by rw [e]) (by rw [e])

/-- The POM half of `SequenceInv` (R33, R174, R235). -/
structure RequestInv (s : State) : Prop where
  budget : s.pom.budget.toNat < Config.pomRepeat.toNat
  idle : s.pom.state = .idle → s.pom.budget = 0
  burst : s.enc.fam = .pom → s.pom.budget ≠ 0 →
    ∃ i : Instr, i.family = .pom ∧ sharedPacket s = withChecksum (encode i)

/-- The service half of `SequenceInv` (R34, R174, R258, R263, R318). -/
structure SequencerInv (s : State) : Prop where
  budget : s.svc.budget.toNat < (svcRepeat s.par s.svc.state).toNat
  data : s.svc.state ≠ .idle → s.svc.data.isSome = true
  mode : s.svc.state ≠ .idle → s.power.serviceMode = true
  burst : s.enc.fam = .service → s.svc.budget ≠ 0 →
    sharedPacket s = withChecksum (servicePayload s.svc) ∧ s.shared.longPreamble = true
  undecided : isRead s.svc.state = true → ∀ k b, s.svc.cursor = some k → s.svc.data = some b →
    ∀ j, j ≤ k.toNat → b.getLsbD j = false

theorem sequenceInv_iff {s : State} : SequenceInv s ↔ RequestInv s ∧ SequencerInv s :=
  ⟨fun ⟨a, b, c, d, e, f, g, h⟩ => ⟨⟨a, b, c⟩, ⟨d, e, f, g, h⟩⟩,
    fun ⟨⟨a, b, c⟩, ⟨d, e, f, g, h⟩⟩ => ⟨a, b, c, d, e, f, g, h⟩⟩

/-- With no burst owed the POM half asks nothing. -/
theorem RequestInv.of_budget_zero {s : State} (h : s.pom.budget = 0) : RequestInv s :=
  ⟨by rw [h]; decide, fun _ => h, fun _ owed => absurd h owed⟩

theorem RequestInv.congr {s t : State} (h : RequestInv s) (state : t.pom.state = s.pom.state)
    (budget : t.pom.budget = s.pom.budget) (fam : t.enc.fam = .pom → s.enc.fam = .pom)
    (packet : t.enc.fam = .pom → sharedPacket t = sharedPacket s) : RequestInv t :=
  ⟨by rw [budget]; exact h.budget, by rw [state, budget]; exact h.idle,
    fun tag owed => by rw [packet tag]; exact h.burst (fam tag) (by rwa [budget] at owed)⟩

/-- An idle sequencer without a burst asks nothing. -/
theorem SequencerInv.of_idle {s : State} (state : s.svc.state = .idle) (budget : s.svc.budget = 0) : SequencerInv s :=
  ⟨by rw [state, budget]; exact Nat.zero_lt_one, fun h => absurd state h, fun h => absurd state h, fun _ h => absurd budget h,
    fun h => by rw [state] at h; cases h⟩

/-- A sequencer whose CV, data, page, register, state, budget and cursor did not change. -/
theorem SequencerInv.congr {s t : State} (h : SequencerInv s)
    (svc : t.svc = { s.svc with paged := t.svc.paged, timeout := t.svc.timeout }) (par : t.par = s.par)
    (mode : t.power.serviceMode = s.power.serviceMode) (fam : t.enc.fam = .service → s.enc.fam = .service)
    (packet : t.enc.fam = .service → sharedPacket t = sharedPacket s)
    (long : t.enc.fam = .service → t.shared.longPreamble = s.shared.longPreamble) : SequencerInv t := by
  have payload : servicePayload t.svc = servicePayload s.svc := by rw [svc]; rfl
  have state : t.svc.state = s.svc.state := by rw [svc]
  have budget : t.svc.budget = s.svc.budget := by rw [svc]
  have data : t.svc.data = s.svc.data := by rw [svc]
  have cursor : t.svc.cursor = s.svc.cursor := by rw [svc]
  exact {
    budget := by rw [par, state, budget]; exact h.budget
    data := by rw [state, data]; exact h.data
    mode := by rw [state, mode]; exact h.mode
    burst := fun tag owed => by
      rw [packet tag, payload, long tag]; exact h.burst (fam tag) (by rwa [budget] at owed)
    undecided := by rw [state, cursor, data]; exact h.undecided }

/-! ## Right after reset -/

theorem bootTable_length (n : Nat) (table : List LocoBoot) : (bootTable n table).length = n := by
  induction n generalizing table with
  | zero => rfl
  | succ n ih => cases table <;> exact congrArg Nat.succ (ih _)

/-- The invariant at the reset state of a legal configuration (R44, R380). -/
theorem inv_boot {par : Params} {n : Nat} {table : List LocoBoot} {iLim vLim : Rat} {es : List Event}
    (config : configStop (State.boot par n table iLim vLim es) = none) (turns : noLoad es = true) :
    Inv (State.boot par n table iLim vLim es) where
  config := config
  turns := turns
  buffers := ⟨⟨.idle, rfl, rfl, rfl, rfl⟩, ⟨.idle, rfl, rfl, rfl⟩⟩
  transmitter :=
    { lock := .inl rfl
      count := ⟨show 1 ≤ 23 by decide, show 23 ≤ 33 by decide⟩
      index := Nat.zero_le _
      dataIndex := fun h => absurd (show 23 ≤ 8 from h) (by decide)
      preamble := fun _ => rfl
      ticks := ⟨show 0 < 10000 by decide, show 0 < 1000 by decide⟩
      pins := ⟨rfl, .inr ⟨rfl, rfl⟩⟩ }
  indices := by
    have capacity : 0 < (bootTable n table).length := List.length_pos_iff.mpr (configLegal_of_none config).slots
    exact ⟨capacity, capacity⟩
  power := ⟨fun h => Bool.noConfusion h, le_refl 0, le_refl 0, le_refl 0, le_refl 0⟩
  sequences := sequenceInv_iff.mpr ⟨.of_budget_zero rfl, .of_idle rfl rfl⟩

/-- Settles O58. -/
theorem resetInvariant : Obligations.ResetInvariant :=
  ⟨inv_boot (by decide) rfl, fun _ _ _ _ _ _ => inv_boot⟩

theorem bootTable_getElem? (n : Nat) (table : List LocoBoot) (i : Nat) (h : i < n) :
    (bootTable n table)[i]? = some (bootSlot (table[i]?.getD emptyBoot)) := by
  induction n generalizing table i with
  | zero => cases h
  | succ n ih =>
    cases table <;> cases i
    case nil.succ i => exact ih [] i (by omega)
    case cons.succ b bs i => exact ih bs i (by omega)
    all_goals rfl

/-- Settles O55: every field but the table's slots is the value of the definition. -/
theorem resetValues : Obligations.ResetValues := by
  rintro par n table iLim vLim es s rfl
  refine ⟨rfl, rfl, rfl, bootTable_length n table, fun i hi => ?_, ⟨rfl, rfl, rfl⟩, ⟨rfl, rfl, rfl, rfl, rfl, rfl⟩,
    rfl, rfl⟩
  rw [show (State.boot par n table iLim vLim es).loco = bootTable n table from rfl, bootTable_getElem? n table i hi]
  cases table[i]? <;> rfl

end Sys2Proof.Machine
end

section
/-! PROOFS. Every step of every agent keeps the invariant: the transmitter (spec/40_transmitter.md R143 to R151), the
claims of the encoder (spec/41_encoder_core.md to spec/45_service_mode.md), the host commands
(spec/47_host_commands.md), RESET. -/

namespace Sys2Proof.Machine

/-! ## The transmitter -/

/-- The counters of `TxInv` (R24, R143 to R149). -/
structure CounterInv (x : Tx) (lockLong : BitVec 6) : Prop where
  lock : x.lock = Config.cntLockShort ∨ x.lock = lockLong
  count : 1 ≤ x.cnt.toNat ∧ x.cnt.toNat ≤ 33
  index : x.bi.toNat ≤ x.buf.len.toNat
  dataIndex : x.cnt.toNat ≤ 8 → x.bi.toNat < x.buf.len.toNat
  preamble : 9 < x.cnt.toNat → x.bi = 0

theorem TxInv.counters {s : State} (h : TxInv s) : CounterInv s.tx s.par.lockLong :=
  ⟨h.lock, h.count, h.index, h.dataIndex, h.preamble⟩

/-- A preamble position keeps the counters in range. -/
theorem counterInv_preamble {s : State} (h : CounterInv s.tx s.par.lockLong) (h9 : 9 < s.tx.cnt.toNat) :
    CounterInv (preambleBit s).1.tx s.par.lockLong := by
  have countdown : (s.tx.cnt - 1).toNat = s.tx.cnt.toNat - 1 :=
    BitVec.toNat_sub_of_le (show 1 ≤ s.tx.cnt.toNat by omega)
  obtain ⟨low, high⟩ := h.count
  rw [preambleBit_frame]
  exact ⟨h.lock, show 1 ≤ (s.tx.cnt - 1).toNat ∧ (s.tx.cnt - 1).toNat ≤ 33 by omega, h.index,
    fun h8 => absurd (show (s.tx.cnt - 1).toNat ≤ 8 from h8) (by omega), fun _ => h.preamble h9⟩

/-- A byte start keeps them, whether it ends the packet or not. -/
theorem counterInv_byteStart {s t : State} {b : Bool} (h : CounterInv s.tx s.par.lockLong)
    (hb : byteStart s = .next (t, b)) : CounterInv t.tx s.par.lockLong := by
  rcases byteStart_next hb with ⟨_, _, e⟩ | ⟨inside, e⟩
  · rw [show t = (endOfPacket s).1 from congrArg Prod.fst e]
    have countdown := endOfPacket_countdown s
    have length : preambleLength s.shared.longPreamble = 24 ∨ preambleLength s.shared.longPreamble = 14 := by
      cases s.shared.longPreamble
      · exact .inr rfl
      · exact .inl rfl
    refine ⟨?_, by omega, Nat.zero_le _, fun h8 => absurd h8 (by omega), fun _ => rfl⟩
    cases long : s.shared.longPreamble
    · exact .inl (by simp [endOfPacket, long])
    · exact .inr (by simp [endOfPacket, long])
  · cases e
    have below : s.tx.bi.toNat < s.tx.buf.len.toNat :=
      lt_of_le_of_ne h.index fun same => inside (BitVec.eq_of_toNat_eq same)
    exact ⟨h.lock, show 1 ≤ 8 ∧ 8 ≤ 33 by decide, h.index, fun _ => below,
      fun h9 => absurd (show 9 < 8 from h9) (by decide)⟩

/-- A data bit keeps them: the last one of a byte moves to the next byte's start. -/
theorem counterInv_data {x : Tx} {lockLong : BitVec 6} (h : CounterInv x lockLong) (h8 : x.cnt.toNat ≤ 8) :
    CounterInv (afterDataBit x) lockLong := by
  have below := h.dataIndex h8
  have len_lt := x.buf.len.isLt
  obtain ⟨low, high⟩ := h.count
  unfold afterDataBit
  split
  case isTrue =>
    have next_index : (x.bi + 1).toNat = x.bi.toNat + 1 := by
      rw [BitVec.toNat_add]; exact Nat.mod_eq_of_lt (show x.bi.toNat + 1 < 8 by omega)
    exact ⟨h.lock, show 1 ≤ 9 ∧ 9 ≤ 33 by decide, show (x.bi + 1).toNat ≤ x.buf.len.toNat by omega,
      fun h8 => absurd (show 9 ≤ 8 from h8) (by decide), fun h9 => absurd (show 9 < 9 from h9) (by decide)⟩
  case isFalse not_last =>
    have countdown : (x.cnt - 1).toNat = x.cnt.toNat - 1 := BitVec.toNat_sub_of_le low
    have : x.cnt.toNat ≠ 1 := fun e => not_last (BitVec.eq_of_toNat_eq e)
    exact ⟨h.lock, show 1 ≤ (x.cnt - 1).toNat ∧ (x.cnt - 1).toNat ≤ 33 by omega, h.index, fun _ => below,
      fun h9 => absurd (show 9 < (x.cnt - 1).toNat from h9) (by omega)⟩

/-- Every call of `TX_NEXT_BIT` keeps the counters in range. -/
theorem counterInv_nextBit {s t : State} {b : Bool} (h : CounterInv s.tx s.par.lockLong)
    (hn : nextBit s = .next (t, b)) : CounterInv t.tx s.par.lockLong := by
  rcases nextBit_next hn with ⟨h9, e⟩ | ⟨cnt, bi, _, e⟩ | ⟨_, _, e⟩ | ⟨_, h8, _, rfl⟩
  · rw [show t = (preambleBit s).1 from congrArg Prod.fst e]
    exact counterInv_preamble h h9
  · refine counterInv_byteStart (s := copied s) ⟨h.lock, h.count, ?_, fun h8 => ?_, h.preamble⟩ e
    · rw [show (copied s).tx.bi = 0 from bi]; exact Nat.zero_le _
    · rw [show (copied s).tx.cnt = 9 from cnt] at h8; exact absurd h8 (by decide)
  · exact counterInv_byteStart h e
  · exact counterInv_data h h8

/-- The transmitter's buffer is as before or the shared one, and the shared packet as before. -/
theorem nextBit_buffers {s t : State} {b : Bool} (hn : nextBit s = .next (t, b)) :
    t.tx.buf = s.tx.buf ∨ t.tx.buf = { data := s.shared.data, len := s.shared.len } := by
  rcases nextBit_next hn with ⟨_, e⟩ | ⟨_, _, _, e⟩ | ⟨_, _, e⟩ | ⟨_, _, _, rfl⟩
  · rw [show t = (preambleBit s).1 from congrArg Prod.fst e, preambleBit_frame]; exact .inl rfl
  · exact .inr (byteStart_shared e).2
  · exact .inl (byteStart_shared e).2
  · left; rw [setTx_tx]; unfold afterDataBit; split <;> rfl

/-- The accumulators stay below their boundaries (R26, R151); a half-period is shorter than both. -/
theorem txTicks_below {d : Nat} {s : State} (hd : d ≤ 116)
    (h : s.tx.acc10 < Config.tick10Us ∧ s.tx.acc1 < Config.tick1Us) :
    (txTicks d s).tx.acc10 < Config.tick10Us ∧ (txTicks d s).tx.acc1 < Config.tick1Us := by
  obtain ⟨h10, h1⟩ := h
  have boundary10 : 116 ≤ Config.tick10Us := by decide
  have boundary1 : 116 ≤ Config.tick1Us := by decide
  rw [txTicks_eq]
  generalize Config.tick10Us = w10 at *
  generalize Config.tick1Us = w1 at *
  constructor
  · simp only; split <;> omega
  · simp only; (repeat' split) <;> omega

theorem halfPeriod_le (b : Bool) : halfPeriod b ≤ 116 := by cases b <;> decide

/-- What a TX step does, as far as the invariant sees it. -/
structure TxEffect (s t : State) : Prop where
  frame : t = { s with tx := t.tx, shared := { s.shared with
    free := t.shared.free, tick10 := t.shared.tick10, tick1 := t.shared.tick1 } }
  buffer : t.tx.buf = s.tx.buf ∨ t.tx.buf = { data := s.shared.data, len := s.shared.len }
  transmitter : TxInv t

theorem txStep_effect {s t : State} (h : txStep s = .next t) (inv : TxInv s) : TxEffect s t := by
  cases txStep_next h with
  | second _ e =>
    have ticks := txTicks_below (s := secondHalf s) (halfPeriod_le s.tx.cur) inv.ticks
    rw [← e] at ticks
    rw [txTicks_frame] at e
    exact ⟨txStep_frame h, .inl (by rw [e]; rfl), by
      obtain ⟨lock, count, index, dataIndex, preamble⟩ := inv.counters
      constructor
      case ticks => exact ticks
      all_goals rw [e]
      case pins => exact ⟨rfl, .inl ⟨rfl, rfl⟩⟩
      all_goals assumption⟩
  | first u b _ hn e =>
    have frame := nextBit_frame hn
    have ticks := txTicks_below (s := queueBit u b) (halfPeriod_le s.tx.q) (by rw [frame]; exact inv.ticks)
    rw [← e] at ticks
    have counters : CounterInv u.tx s.par.lockLong := counterInv_nextBit (s := startBit s)
      ⟨inv.lock, inv.count, inv.index, inv.dataIndex, inv.preamble⟩ hn
    have buffer := nextBit_buffers hn
    rw [txTicks_frame] at e
    refine ⟨txStep_frame h, by rw [e]; exact buffer, ?_⟩
    obtain ⟨lock, count, index, dataIndex, preamble⟩ := counters
    constructor
    case ticks => exact ticks
    case pins => rw [e, frame]; exact ⟨rfl, .inl ⟨rfl, rfl⟩⟩
    all_goals rw [e]
    case lock => rw [show (queueBit u b).par = s.par by rw [frame]; rfl]; exact lock
    all_goals assumption

/-- A TX step keeps the invariant. -/
theorem inv_txStep {s t : State} (inv : Inv s) (h : txStep (popTurn s) = .next t) : Inv t := by
  obtain ⟨frame, buffer, transmitter⟩ :=
    txStep_effect h (inv.transmitter.congr (t := popTurn s) rfl rfl)
  have packet : sharedPacket t = sharedPacket s := by rw [frame]; rfl
  obtain ⟨request, sequencer⟩ := sequenceInv_iff.mp inv.sequences
  constructor
  case config => rw [← inv.config]; exact configStop_congr (by rw [frame]; rfl) (by rw [frame]; rfl)
  case turns => rw [frame]; exact noLoad_tail inv.turns
  case transmitter => exact transmitter
  case indices => exact inv.indices.congr (by rw [frame]; rfl) (by rw [frame]; rfl) (by rw [frame]; rfl)
  case power => exact inv.power.of_eq (by rw [frame]; rfl)
  case sequences =>
    refine sequenceInv_iff.mpr ⟨request.congr (by rw [frame]; rfl) (by rw [frame]; rfl) (fun tag => ?_)
      fun _ => packet, sequencer.congr (by rw [frame]; rfl) (by rw [frame]; rfl) (by rw [frame]; rfl)
      (fun tag => ?_) (fun _ => packet) fun _ => by rw [frame]; rfl⟩ <;> rw [frame] at tag <;> exact tag
  case buffers =>
    obtain ⟨⟨i, hb, hp, hl, hlong⟩, ⟨j, hj⟩⟩ := inv.buffers
    refine ⟨⟨i, hb, by rw [packet, hp], by rw [frame]; exact hl, by rw [frame]; exact hlong⟩, ?_⟩
    rcases buffer with same | copy
    · exact ⟨j, by rw [show txPacket t = txPacket s by rw [txPacket, same]; rfl, same]; exact hj⟩
    · exact ⟨i, hb, by rw [show txPacket t = sharedPacket s by rw [txPacket, copy]; rfl, hp],
        by rw [copy]; exact hl⟩

end Sys2Proof.Machine
end

section
/-! PROOFS. A claim of the encoder keeps the invariant (spec/41_encoder_core.md R170 to R176). -/

namespace Sys2Proof.Machine

/-! ## What DISPATCH guarantees of the packet -/

/-- What the invariant's proof uses of a packet that DISPATCH assembled: it is one the encoder builds, a POM packet
comes from a running request, a service packet is the running state's. -/
structure Dispatched (i : Instr) (s : State) : Prop where
  built : built i = true
  pom : i.family = .pom → s.enc.fam = .pom ∧ s.pom.state ≠ .idle
  service : i.family = .service →
    s.enc.fam = .service ∧ s.svc.state ≠ .idle ∧ encode i = servicePayload s.svc

theorem assemble_service {s : State} {bs : List Byte} (h : assemble s = some (.service, bs)) :
    bs = servicePayload s.svc := by
  rw [assemble, ← assemble_family h] at h
  cases h; rfl

theorem dispatched_of_fetch {s : State} {f : Family} {bs : List Byte} {i : Instr} (turns : noLoad s.agenda = true)
    (hf : fetch s = some (f, bs)) (hd : decode f bs = .ok i) : Dispatched i s := by
  rw [fetch_of_noLoad turns] at hf
  obtain ⟨j, hj, rfl, hb, -⟩ := assemble_built hf
  obtain rfl : i = j := Except.ok.inj (hd.symm.trans hj)
  have family : i.family = f ∨ i = .idle ∧ f = .function := (decode_ok hd).2.2
  have chosen : i.family ≠ .loco → i.family = dispatchFamily s := fun h =>
    (family.resolve_right fun idle => h (by rw [idle.1]; rfl)).trans (assemble_family hf)
  refine ⟨hb, fun h => ?_, fun h => ?_⟩
  · exact dispatchFamily_pom.mp ((chosen (by rw [h]; decide)).symm.trans h)
  · have service := (chosen (by rw [h]; decide)).symm.trans h
    obtain ⟨tag, running⟩ := dispatchFamily_service.mp service
    rw [assemble_family hf, service] at hf
    exact ⟨tag, running, assemble_service hf⟩

/-! ## The parts of the invariant after a claim -/

/-- A published packet that the encoder builds makes a good shared buffer. -/
theorem bufferInv_published {i : Instr} {lp : Bool} {s t : State} (h : BufferInv s) (hb : built i = true)
    (hlp : lp = i.longPreamble) (tx : t.tx = s.tx) (hp : Published (encode i) lp s t) : BufferInv t := by
  obtain ⟨-, j, hj⟩ := h
  refine ⟨⟨i, hb, hp.packet, hp.len, hp.preamble.trans hlp⟩, j, ?_⟩
  rw [show txPacket t = txPacket s by rw [txPacket, tx]; rfl, tx]; exact hj

/-- A claim that leaves the packet in place keeps the buffers. -/
theorem bufferInv_kept {s t : State} (h : BufferInv s) (tx : t.tx = s.tx)
    (shared : t.shared = { s.shared with free := false }) : BufferInv t :=
  h.congr (by rw [sharedPacket, shared]; rfl) (by rw [shared]) (by rw [shared]) (by rw [tx])

/-- The short preamble goes with every family but Service (R118). -/
theorem shortPreamble {i : Instr} (h : i.family ≠ .service) : false = i.longPreamble := by
  rw [longPreamble_eq, decide_eq_false h]

/-- Under a tag other than POM and SERVICE the two sequencers ask nothing of the buffer. -/
theorem sequenceInv_of_tag {s t : State} (h : SequenceInv s) (pom : t.pom = s.pom) (svc : t.svc = s.svc)
    (par : t.par = s.par) (mode : t.power.serviceMode = s.power.serviceMode)
    (tag : t.enc.fam ≠ .pom ∧ t.enc.fam ≠ .service) : SequenceInv t := by
  obtain ⟨request, sequencer⟩ := sequenceInv_iff.mp h
  exact sequenceInv_iff.mpr ⟨request.congr (by rw [pom]) (by rw [pom]) (fun e => absurd e tag.1) (fun e => absurd e tag.1),
    sequencer.congr (by rw [svc]) par mode (fun e => absurd e tag.2) (fun e => absurd e tag.2) (fun e => absurd e tag.2)⟩

/-- The parts that no claim touches, and those that its packet decides. -/
theorem Inv.of_claim {s t : State} (inv : Inv s) (frame : ClaimFrame s t) (buffers : BufferInv t)
    (indices : IndexInv t) (power : PowerInv t) (sequences : SequenceInv t) : Inv t where
  config := by
    have slots : t.loco.length = s.loco.length := by simpa using congrArg List.length frame.slots
    rw [← inv.config]; exact configStop_congr frame.par slots
  turns := by rw [frame.turn]; exact noLoad_tail inv.turns
  buffers := buffers
  transmitter := inv.transmitter.congr frame.tx frame.par
  indices := indices
  power := power
  sequences := sequences

/-! ## The round-robin families -/

theorem indexInv_finishLoco {l : Loco} {s : State} (h : IndexInv s) : IndexInv (finishLoco l s) := by
  unfold finishLoco
  split
  · exact ⟨nextIndex_lt h.loco, h.function⟩
  · exact ⟨by simpa using h.loco, by simpa using h.function⟩

theorem indexInv_advanceFunction {s : State} (h : IndexInv s) : IndexInv (advanceFunction s) := by
  refine ⟨h.loco, ?_⟩
  rw [advanceFunction_enc]
  simp only
  split
  · exact nextIndex_lt h.function
  · exact h.function

theorem finishLoco_fam (l : Loco) (s : State) : (finishLoco l s).enc.fam = .function := by
  unfold finishLoco; split <;> rfl

/-- A claim that ended in a family's advance keeps the invariant. -/
theorem inv_advance {i : Instr} {s t : State} (inv : Inv s) (frame : ClaimFrame s t) (hb : built i = true)
    (hs : i.family ≠ .service) (shared : t.shared = (publish (encode i) false (claim s)).shared)
    (indices : IndexInv t) (power : t.power = s.power) (pom : t.pom = s.pom) (svc : t.svc = s.svc)
    (tag : t.enc.fam ≠ .pom ∧ t.enc.fam ≠ .service) : Inv t :=
  inv.of_claim frame (bufferInv_published inv.buffers hb (shortPreamble hs) frame.tx (published_encode i _ shared))
    indices (inv.power.of_eq power) (sequenceInv_of_tag inv.sequences pom svc frame.par frame.mode tag)

/-! ## The broadcast stop -/

/-- The broadcast is a packet that the encoder builds: `BSTOP`, or under the other parameter value the bytes of
`ESTOP28.S` to address 0 (log entry 11). -/
theorem estopPayload_built (p : Params) :
    ∃ i : Instr, built i = true ∧ encode i = estopPayload p ∧ i.family ≠ .service := by
  cases h : p.estopBcastD
  · exact ⟨.bstop, rfl, by simp [estopPayload, estopBcastInstr, h, encode], by decide⟩
  · refine ⟨.estop28S 0 true, rfl, ?_, by decide⟩
    rw [estopPayload, estopBcastInstr, h]; decide

theorem powerInv_recover {s t : State} (h : PowerInv s) (safe : 0 ≤ s.par.safeMA)
    (e : t.power = recoverTrip s.par.safeMA s.power) : PowerInv t := by
  have frame := recoverTrip_frame s.par.safeMA s.power
  have current : 0 ≤ (recoverTrip s.par.safeMA s.power).busMA := by
    unfold recoverTrip
    split
    · exact safe
    · exact h.current
  rw [← e] at frame current
  constructor
  case trip => intro trip; rw [frame] at trip; cases trip
  case current => exact current
  all_goals rw [frame]
  case volts => exact h.volts
  case quiescent => exact h.quiescent
  case ackBase => exact h.ackBase

theorem inv_bstop {s t : State} (inv : Inv s) (frame : ClaimFrame s t)
    (h : t = setFam (estopEffects (publish (estopPayload s.par) false (claim s))) .loco) : Inv t := by
  obtain ⟨i, hb, hi, hs⟩ := estopPayload_built s.par
  have published : Published (encode i) false s t := published_encode i _ (by rw [hi, h]; rfl)
  refine inv.of_claim frame (bufferInv_published inv.buffers hb (shortPreamble hs) frame.tx published) ?_ ?_ ?_
  · have slots : t.loco.length = s.loco.length := by simpa using congrArg List.length frame.slots
    exact inv.indices.congr (by rw [h]; rfl) (by rw [h]; rfl) slots
  · exact powerInv_recover inv.power (configLegal_of_none inv.config).safe (by rw [h]; rfl)
  · exact sequenceInv_of_tag inv.sequences (by rw [h]; rfl) (by rw [h]; rfl) frame.par frame.mode
      (by rw [h]; exact ⟨Family.noConfusion, Family.noConfusion⟩)

/-! ## The POM burst -/

theorem inv_pomPacket {i : Instr} {s t : State} (inv : Inv s) (frame : ClaimFrame s t) (hd : Dispatched i s)
    (hf : i.family = .pom) (h : pomPacket (encode i) s = .next t) : Inv t := by
  obtain ⟨tag, running⟩ := hd.pom hf
  obtain ⟨request, sequencer⟩ := sequenceInv_iff.mp inv.sequences
  have not_service (e : s.enc.fam = .service) : False := by rw [tag] at e; cases e
  by_cases first : s.pom.budget = 0
  · rw [pomPacket_first _ first] at h
    have published : Published (encode i) false s t := published_encode i _ (by cases h; rfl)
    have short : false = i.longPreamble := shortPreamble (by rw [hf]; decide)
    refine inv.of_claim frame (bufferInv_published inv.buffers hd.built short frame.tx published) ?_ ?_
      (sequenceInv_iff.mpr ⟨⟨?_, fun idle => ?_, fun _ _ => ⟨i, hf, published.packet⟩⟩, ?_⟩) <;> cases h
    · exact inv.indices.congr rfl rfl rfl
    · exact inv.power.of_eq rfl
    · exact (by decide : 3 < 4)
    · exact absurd idle running
    · exact sequencer.congr rfl rfl rfl id (fun e => (not_service e).elim) (fun e => (not_service e).elim)
  · rw [pomPacket_later _ first] at h
    have kept : t.shared = { s.shared with free := false } := by cases h; rfl
    have countdown : (s.pom.budget - 1).toNat = s.pom.budget.toNat - 1 :=
      BitVec.toNat_sub_of_le (Nat.pos_of_ne_zero fun e => first (BitVec.eq_of_toNat_eq e))
    refine inv.of_claim frame (bufferInv_kept inv.buffers frame.tx kept) ?_ ?_
      (sequenceInv_iff.mpr ⟨⟨?_, fun idle => ?_, fun _ _ => ?_⟩, ?_⟩) <;> cases h
    · exact inv.indices.congr rfl rfl rfl
    · exact inv.power.of_eq rfl
    · exact countdown ▸ lt_of_le_of_lt (Nat.sub_le _ _) request.budget
    · simp only at idle
      split at idle
      case isTrue last => exact sub_one_eq_zero.mpr last
      case isFalse => exact absurd idle running
    · exact request.burst tag first
    · exact sequencer.congr rfl rfl rfl id (fun e => (not_service e).elim) (fun e => (not_service e).elim)

/-! ## The service bursts -/

/-- In a bit pass only bit `k` can change, so the bits below it stay undecided. -/
theorem setCvBit_below {d : CvData} {k : BitVec 3} {b' : Byte} (h : setCvBit d k = some b') {j : Nat}
    (hj : j < k.toNat) : ∃ b, d = some b ∧ b'.getLsbD j = b.getLsbD j := by
  obtain ⟨b, rfl, rfl⟩ := Option.map_eq_some_iff.mp h
  refine ⟨b, rfl, ?_⟩
  rw [getLsbD_setBit, decide_eq_false (by omega), Bool.or_false]

/-- What the sequencer's part of the invariant asks at the end of a burst. -/
theorem SequencerInv.of_burst_end {s : State} (config : configStop s = none) (budget : s.svc.budget = 0)
    (data : s.svc.state ≠ .idle → s.svc.data.isSome = true)
    (mode : s.svc.state ≠ .idle → s.power.serviceMode = true)
    (undecided : isRead s.svc.state = true → ∀ k b, s.svc.cursor = some k → s.svc.data = some b →
      ∀ j, j ≤ k.toNat → b.getLsbD j = false) : SequencerInv s :=
  ⟨by rw [budget]; exact svcRepeat_pos config _, data, mode, fun _ owed => absurd budget owed, undecided⟩

/-- The evaluation of a bit pass keeps the sequencer's part: the bits below the new cursor are the old ones. -/
theorem sequencerInv_rdEvalBit {s : State} {k : BitVec 3} (config : configStop s = none) (h : SequencerInv s)
    (budget : s.svc.budget = 0) (state : s.svc.state = .rdFinal) (cursor : s.svc.cursor = some k) :
    SequencerInv (rdEvalBit k s) := by
  have running : s.svc.state ≠ .idle := by rw [state]; decide
  have reading : isRead s.svc.state = true := by rw [state]; rfl
  refine .of_burst_end config budget (fun _ => ?_) (fun _ => h.mode running) (fun _ k' b' hk hb j hj => ?_)
  · have known := h.data running
    simp only [rdEvalBit, setPower_svc, setSvc_svc]
    split
    · rw [setCvBit, Option.isSome_map]; exact known
    · exact known
  · have lower : j < k.toNat := by
      have hk : cursorBelow k = some k' := hk
      unfold cursorBelow at hk
      split at hk
      · cases hk
      · rename_i not_zero
        cases hk
        have pos : 1 ≤ k.toNat := Nat.pos_of_ne_zero fun e => not_zero (BitVec.eq_of_toNat_eq e)
        rw [BitVec.toNat_sub_of_le pos, show (1 : BitVec 3).toNat = 1 from rfl] at hj
        omega
    have hb : (if s.power.ackFlag then setCvBit s.svc.data k else s.svc.data) = some b' := hb
    split at hb
    · obtain ⟨b, hd, same⟩ := setCvBit_below hb lower
      rw [same]; exact h.undecided reading k b cursor hd j lower.le
    · exact h.undecided reading k b' cursor hb j lower.le

/-- The exit action of every state keeps the sequencer's part. -/
theorem sequencerInv_svcExit {s : State} (config : configStop s = none) (h : SequencerInv s)
    (budget : s.svc.budget = 0) (running : s.svc.state ≠ .idle) : SequencerInv (svcExit s) := by
  by_cases verify : s.svc.state = .rdVerify
  · simp only [svcExit, verify]
    exact .of_burst_end config budget (fun _ => h.data running) (fun _ => h.mode running)
      (fun _ => h.undecided (by rw [verify]; rfl))
  by_cases final : s.svc.state = .rdFinal
  · simp only [svcExit, final]
    unfold rdEval
    split
    case h_1 k cursor => exact sequencerInv_rdEvalBit config h budget final cursor
    case h_2 =>
      refine .of_idle rfl ?_
      unfold rdEvalByte verifyResult
      split <;> exact budget
  · rw [svcExit_plain verify final]
    refine .of_burst_end config budget (fun _ => h.data running) (fun _ => h.mode running) (fun reading => ?_)
    refine h.undecided ?_
    have reading : isRead (svcSuccessor s.svc.state) = true := reading
    revert reading; cases s.svc.state <;> decide

/-- The exit action arms or disarms the detector; the baseline stays, or becomes the smoothed current (R265, R296). -/
theorem powerInv_svcExit {s : State} (h : PowerInv s) : PowerInv (svcExit s) := by
  have ackBase : (svcExit s).power.ackBaseMA = s.power.busMA ∨ (svcExit s).power.ackBaseMA = s.power.ackBaseMA := by
    unfold svcExit
    split
    · exact .inl rfl
    · unfold rdEval
      split
      · exact .inl rfl
      · exact .inr rfl
    · exact .inr rfl
  have not_negative : 0 ≤ (svcExit s).power.ackBaseMA := by
    rcases ackBase with e | e <;> rw [e]
    · exact h.current
    · exact h.ackBase
  constructor
  case ackBase => exact not_negative
  all_goals rw [svcExit_frame]
  case trip => exact h.trip
  case current => exact h.current
  case volts => exact h.volts
  case quiescent => exact h.quiescent

/-- The POM half after a service claim: the tag is SERVICE and the request untouched. -/
theorem requestInv_of_service {s t : State} (h : RequestInv s) (pom : t.pom = s.pom) (tag : t.enc.fam = .service) :
    RequestInv t :=
  h.congr (by rw [pom]) (by rw [pom]) (fun e => by rw [tag] at e; cases e) (fun e => by rw [tag] at e; cases e)

theorem inv_svcPacket {i : Instr} {s t : State} (inv : Inv s) (frame : ClaimFrame s t) (hd : Dispatched i s)
    (hf : i.family = .service) (h : svcPacket (encode i) s = .next t) : Inv t := by
  obtain ⟨tag, running, payload⟩ := hd.service hf
  obtain ⟨request, sequencer⟩ := sequenceInv_iff.mp inv.sequences
  have long : true = i.longPreamble := by rw [longPreamble_eq, hf]; rfl
  by_cases last : s.svc.budget = 1 ∨ s.svc.budget = 0 ∧ svcRepeat s.par s.svc.state = 1
  · rw [svcPacket_last _ last] at h
    obtain rfl := Host.Outcome.next.inj h
    have exit_frame := svcExit_frame (burstEnd (encode i) s)
    have end_frame := burstEnd_frame (encode i) s
    have buffer : BurstCompleted i s (svcExit (burstEnd (encode i) s)) :=
      burstCompleted_of_shared (by rw [exit_frame])
    refine inv.of_claim frame ?_ ?_ (powerInv_svcExit ?_) (sequenceInv_iff.mpr ⟨?_, sequencerInv_svcExit ?_ ?_ ?_ ?_⟩)
    · rcases last with one | ⟨zero, -⟩
      · exact bufferInv_kept inv.buffers frame.tx (buffer.kept one)
      · exact bufferInv_published inv.buffers hd.built long frame.tx (buffer.published zero)
    · exact inv.indices.congr (by rw [exit_frame, end_frame]) (by rw [exit_frame, end_frame])
        (by rw [exit_frame, end_frame])
    · exact inv.power.of_eq (by rw [end_frame])
    · exact requestInv_of_service request (by rw [exit_frame, end_frame]) (by rw [exit_frame, end_frame]; exact tag)
    · rw [← inv.config]; exact configStop_congr (by rw [end_frame]) (by rw [end_frame])
    · have config : configStop (burstEnd (encode i) s) = none := by
        rw [← inv.config]; exact configStop_congr (by rw [end_frame]) (by rw [end_frame])
      refine .of_burst_end config ?_ ?_ ?_ ?_ <;> rw [end_frame]
      · exact sequencer.data
      · exact sequencer.mode
      · exact sequencer.undecided
    · rw [end_frame]
    · rw [end_frame]; exact running
  · obtain ⟨not_one, more⟩ := not_or.mp last
    by_cases first : s.svc.budget = 0
    · rw [svcPacket_first _ first fun e => more ⟨first, e⟩] at h
      have published : Published (encode i) true s t := published_encode i _ (by cases h; rfl)
      have packet := published.packet
      have preamble := published.preamble
      have positive := svcRepeat_pos inv.config s.svc.state
      have countdown : (svcRepeat s.par s.svc.state - 1).toNat = (svcRepeat s.par s.svc.state).toNat - 1 :=
        BitVec.toNat_sub_of_le positive
      rw [payload] at packet
      refine inv.of_claim frame (bufferInv_published inv.buffers hd.built long frame.tx published) ?_ ?_
        (sequenceInv_iff.mpr ⟨?_, ?_, ?_, ?_, fun _ _ => ?_, ?_⟩) <;> cases h
      · exact inv.indices.congr rfl rfl rfl
      · exact inv.power.of_eq rfl
      · exact requestInv_of_service request rfl tag
      · exact countdown ▸ Nat.sub_lt positive Nat.one_pos
      · exact sequencer.data
      · exact sequencer.mode
      · exact ⟨packet, preamble⟩
      · exact sequencer.undecided
    · rw [svcPacket_later _ first not_one] at h
      have kept : t.shared = { s.shared with free := false } := by cases h; rfl
      have countdown : (s.svc.budget - 1).toNat = s.svc.budget.toNat - 1 :=
        BitVec.toNat_sub_of_le (Nat.pos_of_ne_zero fun e => first (BitVec.eq_of_toNat_eq e))
      refine inv.of_claim frame (bufferInv_kept inv.buffers frame.tx kept) ?_ ?_
        (sequenceInv_iff.mpr ⟨?_, ?_, ?_, ?_, fun _ _ => ?_, ?_⟩) <;> cases h
      · exact inv.indices.congr rfl rfl rfl
      · exact inv.power.of_eq rfl
      · exact requestInv_of_service request rfl tag
      · exact countdown ▸ lt_of_le_of_lt (Nat.sub_le _ _) sequencer.budget
      · exact sequencer.data
      · exact sequencer.mode
      · exact sequencer.burst tag first
      · exact sequencer.undecided

/-! ## Every claim -/

/-- A claim of a packet that DISPATCH assembled keeps the invariant. -/
theorem inv_exec {i : Instr} {s t : State} (inv : Inv s) (hd : Dispatched i s) (h : exec i s = .next t) : Inv t := by
  have frame := exec_frame h
  have indices : IndexInv (publish (encode i) false (claim s)) := inv.indices.congr rfl rfl rfl
  cases exec_next h with
  | loco l hf slot e =>
    subst e
    refine inv_advance inv frame hd.built (by rw [hf]; decide) (by simp) (indexInv_finishLoco indices) ?_ ?_ ?_ ?_
    · rw [finishLoco_frame]; rfl
    · rw [finishLoco_frame]; rfl
    · rw [finishLoco_frame]; rfl
    · rw [finishLoco_fam]; decide
  | idle l hi slot e =>
    subst e
    exact inv_advance inv frame hd.built (by rw [hi]; decide) rfl ⟨nextIndex_lt indices.loco, indices.function⟩
      rfl rfl rfl ⟨Family.noConfusion, Family.noConfusion⟩
  | function l hf slot e =>
    subst e
    have not_service : i.family ≠ .service := by
      rcases hf with hf | rfl
      · rw [hf]; decide
      · decide
    exact inv_advance inv frame hd.built not_service rfl (indexInv_advanceFunction indices)
      rfl rfl rfl ⟨Family.noConfusion, Family.noConfusion⟩
  | accessory hf e =>
    subst e
    exact inv_advance inv frame hd.built (by rw [hf]; decide) rfl (indices.congr rfl rfl rfl)
      rfl rfl rfl ⟨Family.noConfusion, Family.noConfusion⟩
  | estop hi e => exact inv_bstop inv frame e
  | pom hf e => exact inv_pomPacket inv frame hd hf (congrArg _ e.symm)
  | service hf hb e => exact inv_svcPacket inv frame hd hf (congrArg _ e.symm)
  | writeBit hf hb e => exact absurd hd.built (by rw [hb]; decide)

end Sys2Proof.Machine
end

section
/-! PROOFS. A host command keeps the invariant (spec/47_host_commands.md R310 to R323), and the step lemma: every step of
every agent does. -/

namespace Sys2Proof.Machine

/-! ## The parts of the invariant after a host command -/

/-- The parts that no host command touches, and those that it may. -/
theorem Inv.of_host {s t : State} (inv : Inv s) (frame : HostFrame s t) (power : PowerInv t) (request : RequestInv t)
    (sequencer : SequencerInv t) : Inv t where
  config := by rw [← inv.config]; exact configStop_congr frame.par frame.slots
  turns := by rw [frame.agenda]; exact inv.turns
  buffers := inv.buffers.congr (by rw [sharedPacket, frame.shared]; rfl) (by rw [frame.shared]) (by rw [frame.shared])
    (by rw [frame.tx])
  transmitter := inv.transmitter.congr frame.tx frame.par
  indices := inv.indices.congr (by rw [frame.enc]) (by rw [frame.enc]) frame.slots
  power := power
  sequences := sequenceInv_iff.mpr ⟨request, sequencer⟩

theorem HostFrame.packet {s t : State} (h : HostFrame s t) : sharedPacket t = sharedPacket s := by
  rw [sharedPacket, h.shared]; rfl

/-- A command that leaves the POM request and does not take the tag to POM. -/
theorem HostFrame.request {s t : State} (h : HostFrame s t) (inv : Inv s) (state : t.pom.state = s.pom.state)
    (budget : t.pom.budget = s.pom.budget) (tag : t.enc.fam = .pom → s.enc.fam = .pom) : RequestInv t :=
  (sequenceInv_iff.mp inv.sequences).1.congr state budget tag fun _ => h.packet

/-- A command that leaves the sequencer, but for its configuration and timeout, and does not take the tag to SERVICE. -/
theorem HostFrame.sequencer {s t : State} (h : HostFrame s t) (inv : Inv s)
    (svc : t.svc = { s.svc with paged := t.svc.paged, timeout := t.svc.timeout })
    (mode : t.power.serviceMode = s.power.serviceMode) (tag : t.enc.fam = .service → s.enc.fam = .service) :
    SequencerInv t :=
  (sequenceInv_iff.mp inv.sequences).2.congr svc h.par mode tag (fun _ => h.packet) fun _ => by rw [h.shared]

/-- A command that touches neither sequencer, nor the tag, nor the mode. -/
theorem Inv.of_host_plain {s t : State} (inv : Inv s) (frame : HostFrame s t) (power : PowerInv t)
    (mode : t.power.serviceMode = s.power.serviceMode) (pom : t.pom = s.pom) (svc : t.svc = s.svc)
    (enc : t.enc = s.enc) : Inv t :=
  inv.of_host frame power (frame.request inv (by rw [pom]) (by rw [pom]) (by rw [enc]; exact id))
    (frame.sequencer inv (by rw [svc]) mode (by rw [enc]; exact id))

/-! ## The power monitor -/

/-- The moving average of numbers that are not negative is not negative (R291). -/
theorem smooth_nonneg {w x y : Rat} (hw : 0 ≤ w ∧ w ≤ 1) (hx : 0 ≤ x) (hy : 0 ≤ y) : 0 ≤ smooth w x y := by
  obtain ⟨low, high⟩ := hw
  have weighted : smooth w x y = (1 - w) * x + w * y := by rw [smooth]; ring
  rw [weighted]
  exact add_nonneg (mul_nonneg (sub_nonneg.mpr high) hx) (mul_nonneg low hy)

/-- After a monitor tick a trip excludes a power request if it did before (R293). -/
theorem pmTick10_excludes {i u : Rat} {p : Power} (h : p.trip = true → p.enable = false)
    (trip : (pmTick10 i u p).trip = true) : (pmTick10 i u p).enable = false := by
  unfold pmTick10 tripCheck at *
  split at trip
  case isTrue above => rw [if_pos above]; rfl
  case isFalse under => rw [if_neg under]; exact h trip

/-- A monitor tick at samples that are not negative keeps the power part (R290 to R293). -/
theorem powerInv_tick {s t : State} {i u : Rat} {p : Power} {flag : Bool} (h : PowerInv s) (hi : 0 ≤ i) (hu : 0 ≤ u)
    (hp : p = s.power ∨ p = pmTick10 i u s.power) (e : t.power = { p with ackFlag := flag }) : PowerInv t := by
  rcases hp with rfl | rfl
  · exact h.congr (by rw [e]; exact h.trip) (by rw [e]) (by rw [e]) (by rw [e]) (by rw [e])
  · have frame := pmTick10_frame i u s.power
    constructor <;> rw [e]
    case trip => exact pmTick10_excludes h.trip
    all_goals rw [frame]
    case current => exact smooth_nonneg (by norm_num [Config.emaWeight]) h.current hi
    case volts => exact smooth_nonneg (by norm_num [Config.voltEmaWeight]) h.volts hu
    case quiescent => exact h.quiescent
    case ackBase => exact h.ackBase

theorem inv_tickConsume {s : State} (inv : Inv s) (i10 u10 i1 : Rat) : Inv (hTickConsume i10 u10 i1 s) := by
  have frame := hostFrame_tickConsume i10 u10 i1 s
  obtain ⟨a, u, c, ha, hu, -, e⟩ := hTickConsume_samples i10 u10 i1 s
  obtain ⟨p, flag, hp, power⟩ := tickConsume_power a u c s
  have mode : (consumeTick1 c (consumeTick10 a u s)).power.serviceMode = s.power.serviceMode := by
    rw [power]
    rcases hp with rfl | rfl
    · rfl
    · rw [pmTick10_frame]
  rw [e] at frame ⊢
  refine inv.of_host_plain frame (powerInv_tick inv.power ha hu hp power) mode ?_ ?_ ?_ <;>
    rw [consumeTick1_frame, consumeTick10_frame]

/-! ## Service mode -/

/-- The fields that a CV command arms (R318). -/
theorem sequencerInv_arm {s t : State} (config : configStop t = none) {cv x : Nat} {verify : Bool} {timeout : BitVec 8}
    (svc : t.svc = armService s.svc cv x verify timeout) (mode : t.power.serviceMode = true) : SequencerInv t := by
  refine .of_burst_end config (by rw [svc]; rfl) (fun _ => by rw [svc]; rfl) (fun _ => mode) ?_
  rw [svc]
  intro reading k b _ data j _
  cases verify
  · have : isRead (if s.svc.paged then .pgStart else .dStart) = true := reading
    split at this <;> cases this
  · obtain rfl : 0 = b := Option.some.inj data
    exact BitVec.getLsbD_zero

theorem inv_writeService {s : State} (inv : Inv s) (cv x : Nat) (verify enter exit : Bool) :
    Inv (hWriteService cv x verify enter exit s) := by
  have frame := hostFrame_writeService cv x verify enter exit s
  unfold hWriteService at *
  split
  case isTrue leave =>
    rw [if_pos leave] at frame
    exact inv.of_host frame (inv.power.congr inv.power.trip rfl rfl rfl rfl)
      (frame.request inv rfl rfl Family.noConfusion) (.of_idle rfl rfl)
  case isFalse stay =>
    rw [if_neg stay] at frame
    split
    case isTrue start =>
      rw [if_pos start] at frame
      exact inv.of_host frame
        ⟨inv.power.trip, inv.power.current, inv.power.volts, inv.power.current, inv.power.ackBase⟩
        (frame.request inv rfl rfl Family.noConfusion) (.of_idle rfl rfl)
    case isFalse no_start =>
      rw [if_neg no_start] at frame
      split
      case isTrue mode =>
        rw [if_pos mode] at frame
        exact inv.of_host frame (inv.power.of_eq rfl) (frame.request inv rfl rfl Family.noConfusion)
          (sequencerInv_arm inv.config rfl mode)
      case isFalse => exact inv

/-! ## The quarter-second tick -/

/-- The POM half leaves the request or aborts it (R321). -/
theorem pomQtick_request (s : State) :
    (pomQtick s).pom.budget = 0 ∨
      (pomQtick s).pom.state = s.pom.state ∧ (pomQtick s).pom.budget = s.pom.budget := by
  unfold pomQtick
  split
  · exact .inr ⟨rfl, rfl⟩
  · simp only
    split
    · exact .inl rfl
    · exact .inr ⟨rfl, rfl⟩

/-- The service half leaves the sequence or aborts it (R321). -/
theorem svcQtick_sequence (s : State) :
    (svcQtick s).svc.state = .idle ∧ (svcQtick s).svc.budget = 0 ∨
      (svcQtick s).svc = { s.svc with timeout := (svcQtick s).svc.timeout } := by
  unfold svcQtick
  split
  · exact .inr rfl
  · simp only
    split
    · exact .inl ⟨rfl, rfl⟩
    · exact .inr rfl

theorem inv_qtick {s : State} (inv : Inv s) : Inv (svcQtick (pomQtick s)) := by
  have frame : HostFrame s (svcQtick (pomQtick s)) := hostStep_frame (c := .qtick) rfl
  have pom : (svcQtick (pomQtick s)).pom = (pomQtick s).pom := by rw [svcQtick_frame]
  have svc : (pomQtick s).svc = s.svc := by rw [pomQtick_frame]
  have enc : (svcQtick (pomQtick s)).enc = s.enc := by rw [svcQtick_frame, pomQtick_frame]
  refine inv.of_host frame ?_ ?_ ?_
  · rw [svcQtick_frame, pomQtick_frame]
    exact inv.power.congr inv.power.trip rfl rfl rfl rfl
  · rcases pomQtick_request s with aborted | ⟨state, budget⟩
    · exact .of_budget_zero (by rw [pom]; exact aborted)
    · exact frame.request inv (by rw [pom]; exact state) (by rw [pom]; exact budget) (by rw [enc]; exact id)
  · rcases svcQtick_sequence (pomQtick s) with ⟨state, budget⟩ | kept
    · exact .of_idle state budget
    · refine frame.sequencer inv ?_ ?_ (by rw [enc]; exact id)
      · rw [kept, svc]
      · rw [svcQtick_frame, pomQtick_frame]

/-! ## Every host command, every step -/

/-- Power is requested only without a trip (R317, R319). -/
theorem clearTrip_excludes (p : Power) (trip : (clearTrip p).trip = true) : (clearTrip p).enable = false := by
  rw [clearTrip_frame] at trip; cases trip

theorem inv_power {s : State} (inv : Inv s) (on : Bool) : Inv (hPower on s) := by
  have frame : HostFrame s (hPower on s) := hostStep_frame (c := .power on) rfl
  unfold hPower at *
  split
  case isTrue => exact inv
  case isFalse allowed =>
    rw [if_neg allowed] at frame
    refine inv.of_host_plain frame (inv.power.congr (fun trip => ?_) rfl rfl rfl rfl) rfl rfl rfl rfl
    have tripped : s.power.trip = true := trip
    simpa [tripped] using allowed

theorem inv_hostStep {c : HostCmd} {s t : State} (inv : Inv s) (h : hostStep c s = .next t) : Inv t := by
  have frame := hostStep_frame h
  cases c
  case locoWrite i w =>
    obtain ⟨l, -, rfl⟩ := hLocoWrite_next h
    exact inv.of_host_plain frame (inv.power.of_eq rfl) rfl rfl rfl rfl
  case tickConsume i10 u10 i1 => cases h; exact inv_tickConsume inv i10 u10 i1
  case estopTick => cases h; exact inv.of_host_plain frame (inv.power.of_eq rfl) rfl rfl rfl rfl
  case estopReq =>
    cases h
    exact inv.of_host frame (inv.power.of_eq rfl) (frame.request inv rfl rfl Family.noConfusion)
      (frame.sequencer inv rfl rfl Family.noConfusion)
  case accessory addr thrown =>
    cases h
    exact inv.of_host frame (inv.power.of_eq rfl) (frame.request inv rfl rfl Family.noConfusion)
      (frame.sequencer inv rfl rfl Family.noConfusion)
  case pomSetup kind bitMode bitValue bitPos =>
    cases h
    exact inv.of_host frame (inv.power.of_eq rfl) (frame.request inv rfl rfl id) (frame.sequencer inv rfl rfl id)
  case writePom address cvRegister value =>
    cases h
    exact inv.of_host frame (inv.power.of_eq rfl) (.of_budget_zero rfl)
      (frame.sequencer inv rfl rfl Family.noConfusion)
  case tripClear =>
    cases h
    have power := clearTrip_frame s.power
    refine inv.of_host_plain frame (inv.power.congr (clearTrip_excludes s.power) ?_ ?_ ?_ ?_) ?_ rfl rfl rfl <;>
      rw [setPower_power, power]
  case svcConfig paged =>
    cases h
    exact inv.of_host frame (inv.power.of_eq rfl) (frame.request inv rfl rfl id) (frame.sequencer inv rfl rfl id)
  case writeService cv x verify enter exit => cases h; exact inv_writeService inv cv x verify enter exit
  case power on => cases h; exact inv_power inv on
  case qtick => cases h; exact inv_qtick inv
  case takeCallback => cases h; exact inv.of_host_plain frame (inv.power.of_eq rfl) rfl rfl rfl rfl

/-- Using up a turn keeps the invariant. -/
theorem inv_popTurn {s : State} (inv : Inv s) : Inv (popTurn s) := by
  obtain ⟨request, sequencer⟩ := sequenceInv_iff.mp inv.sequences
  exact ⟨inv.config, noLoad_tail inv.turns, inv.buffers.congr rfl rfl rfl rfl, inv.transmitter.congr rfl rfl,
    inv.indices.congr rfl rfl rfl, inv.power.of_eq rfl,
    sequenceInv_iff.mpr ⟨request.congr rfl rfl id fun _ => rfl,
      sequencer.congr rfl rfl rfl id (fun _ => rfl) fun _ => rfl⟩⟩

/-- Settles O59: each agent's step, and RESET. -/
theorem stepKeepsInvariant : Obligations.StepKeepsInvariant := by
  intro s t inv h
  cases step_next h with
  | tx _ h => exact inv_txStep inv h
  | claim i f bs _ _ hf hd h => exact inv_exec inv (dispatched_of_fetch inv.turns hf hd) h
  | pass _ _ h => subst h; exact inv_popTurn inv
  | host c es _ h => exact inv_hostStep (inv_popTurn inv) h
  | reset table iLim vLim es turn h =>
    subst h
    have turns : noLoad es = true := by have := noLoad_tail inv.turns; rwa [turn] at this
    refine inv_boot ?_ turns
    rw [← inv.config]
    exact configStop_congr rfl (bootTable_length _ table)

end Sys2Proof.Machine
end

section
/-! PROOFS. One step: whose it is, what stops it, what it can change of the modes and the callback queue
(spec/20_memory.md R81, spec/41_encoder_core.md R170, spec/60_exceptions.md R345, R361). -/

namespace Sys2Proof.Machine

/-! ## Whose step it is -/

theorem step_of_config {s : State} (h : configStop s = none) : step s = agentStep s := by rw [step, h]

/-- With the flag true an encoder turn runs the packet that the fetched bytes are (R170). -/
theorem encStep_runs {s : State} {f : Family} {bs : List Byte} {i : Instr} (free : s.shared.free = true)
    (hf : fetch s = some (f, bs)) (hd : decode f bs = .ok i) : encStep s = exec i s := by
  rw [encStep, if_pos free, encClaim, hf]
  simp only [hd]

/-- Settles O6: each of the three turns is an encoder turn. -/
theorem stepRunsDecoded : Obligations.StepRunsDecoded := by
  intro s f bs i config free turn hf hd _
  rw [step_of_config config, ← encStep_runs free hf hd, agentStep]
  rcases turn with turn | ⟨es, turn⟩ | ⟨es, turn⟩ <;> simp only [turn]
  exact if_pos free

theorem popTurn_of_cons {s : State} {e : Event} {es : List Event} (h : s.agenda = e :: es) :
    popTurn s = { s with agenda := es } := by
  rw [popTurn, h]; rfl

/-- Settles O7: the agent is the one at the head of the agenda. -/
theorem stepTakesTheTurn : Obligations.StepTakesTheTurn := by
  intro s es config
  rw [step_of_config config]
  refine ⟨fun turn => ?_, fun c turn => ?_, fun table iLim vLim turn => ?_, fun turn busy => ?_, fun turn busy => ?_⟩
  · simp only [agentStep, turn, popTurn_of_cons turn]
  · simp only [agentStep, turn, popTurn_of_cons turn]
  · simp only [agentStep, turn, popTurn_of_cons turn]; rfl
  · simp only [agentStep, turn, encStep, busy, popTurn_of_cons turn]; rfl
  · simp only [agentStep, turn, busy]; rfl

theorem step_of_stop {s : State} {r : Refusal} (h : configStop s = some r) : step s = .refused r := by rw [step, h]

/-- Settles O8: the four checks in their order. -/
theorem configurationRefused : Obligations.ConfigurationRefused := by
  refine fun s => ⟨fun pwm => ?_, fun dcc empty => ?_, fun dcc slots lock => ?_, fun dcc slots low high zero => ?_⟩ <;>
    apply step_of_stop <;> unfold configStop
  · rw [if_pos pwm]
  all_goals rw [if_neg (show ¬ s.par.variant = .dcPwm by rw [dcc]; decide)]
  · rw [if_pos empty]
  all_goals rw [if_neg slots]
  · have outside : lockLongOk s.par = false := by
      simp only [lockLongOk, Bool.and_eq_false_iff, decide_eq_false_iff_not]; omega
    rw [outside]; rfl
  · have inside : lockLongOk s.par = true := by
      simp only [lockLongOk, Bool.and_eq_true, decide_eq_true_eq]; exact ⟨low, high⟩
    have ranges : (repeatsOk s.par && openOk s.par) = false := by
      simp only [repeatsOk, openOk, Bool.and_eq_false_iff, bne_eq_false_iff_eq, decide_eq_false_iff_not, not_le]
      tauto
    rw [inside, ranges]; rfl

/-! ## A table word placed -/

theorem mem_of_foldl_moreFixed {is : List Instr} {best : Option Instr} {i : Instr}
    (h : is.foldl moreFixed best = some i) : best = some i ∨ i ∈ is := by
  induction is generalizing best with
  | nil => exact .inl h
  | cons j js ih =>
    rcases ih h with e | later
    · unfold moreFixed at e
      split at e
      · exact .inr (Option.some.inj e ▸ List.mem_cons_self)
      · split at e
        · exact .inr (Option.some.inj e ▸ List.mem_cons_self)
        · exact .inl e
    · exact .inr (List.mem_cons_of_mem _ later)

/-- A table word is read as a well-formed packet. -/
theorem decodeTableWord_wf {nbits w : Nat} {i : Instr} (h : decodeTableWord nbits w = some i) : i.wf = true := by
  unfold decodeTableWord at h
  split at h
  · rcases mem_of_foldl_moreFixed h with none | read
    · cases none
    · obtain ⟨f, -, hd⟩ := List.mem_filterMap.mp read
      cases hd' : decode f (tableBytes (nbits / 8) w) with
      | error e => rw [hd'] at hd; cases hd
      | ok j => rw [hd'] at hd; cases hd; exact (decode_ok hd').2.1
  · cases h

/-- Settles O5: by the encoder's own DISPATCH or from outside, the fetched bytes are the packet's. -/
theorem placedWordRuns : Obligations.PlacedWordRuns := by
  intro s nbits w i config word
  have wf := decodeTableWord_wf word
  rw [State.withFetchWord, placeWord, word]
  simp only
  have outside : step (withTurn (.load i.family (encode i)) s) = exec i (withTurn (.load i.family (encode i)) s) :=
    stepRunsDecoded _ _ _ i config rfl (.inr (.inr ⟨_, rfl⟩)) rfl (decode_encode wf) wf
  unfold placeInstr
  split
  case h_1 => exact outside
  case h_2 t arranged =>
    split
    case isFalse => exact outside
    case isTrue assembled =>
      obtain ⟨par, slots, -⟩ := arrange_frame arranged
      have config' : configStop (withTurn .enc t) = none := by rw [← config]; exact configStop_congr par slots
      have fetched : fetch (withTurn .enc t) = some (i.family, encode i) := assembled
      exact stepRunsDecoded _ _ _ i config' rfl (.inr (.inl ⟨_, rfl⟩)) fetched (decode_encode wf) wf

/-! ## No step stops -/

/-- `TX_NEXT_BIT` answers in every state with the invariant. -/
theorem nextBit_answers {s : State} (h : CounterInv s.tx s.par.lockLong) (copy : 1 ≤ s.shared.len.toNat)
    (copy6 : s.shared.len.toNat ≤ 6) (buf6 : s.tx.buf.len.toNat ≤ 6) : ∃ t b, nextBit s = .next (t, b) := by
  by_cases h9 : 9 < s.tx.cnt.toNat
  · exact ⟨_, _, nextBit_preamble h9⟩
  by_cases at9 : s.tx.cnt = 9
  · by_cases first : s.tx.bi = 0
    · have not_empty : s.tx.bi ≠ s.shared.len := fun e => by rw [← e, first] at copy; exact absurd copy (by decide)
      exact ⟨_, _, by rw [nextBit_copy at9 first copy6]; exact byteStart_separator not_empty⟩
    · rw [nextBit_inside at9 first]
      by_cases last : s.tx.bi = s.tx.buf.len
      · exact ⟨_, _, byteStart_end last first⟩
      · exact ⟨_, _, byteStart_separator last⟩
  · have h8 : s.tx.cnt.toNat ≤ 8 := by
      have : s.tx.cnt.toNat ≠ 9 := fun e => at9 (BitVec.eq_of_toNat_eq e)
      omega
    have below : s.tx.bi.toNat < (packetList s.tx.buf.data).length :=
      lt_of_lt_of_le (h.dataIndex h8) buf6
    have cnt_ne_zero : s.tx.cnt ≠ 0 := fun e => by
      have low := h.count.1
      rw [e] at low; exact absurd low (by decide)
    rw [nextBit_eq_dataBit h8]
    exact ⟨_, _, dataBit_of_getElem? cnt_ne_zero (List.getElem?_eq_getElem below)⟩

theorem txStep_answers {s : State} (inv : Inv s) : ∃ t, txStep s = .next t := by
  obtain ⟨⟨i, -, -, len, -⟩, ⟨j, -, -, buf⟩⟩ := inv.buffers
  have short_i := encode_length_le i
  have short_j := encode_length_le j
  cases half : s.tx.half with
  | true => exact ⟨_, by rw [txStep, if_pos half]⟩
  | false =>
    have tx := inv.transmitter
    obtain ⟨t, b, next⟩ := nextBit_answers (s := startBit s)
      ⟨tx.lock, tx.count, tx.index, tx.dataIndex, tx.preamble⟩ (by rw [startBit_shared]; omega)
      (by rw [startBit_shared]; omega) (show s.tx.buf.len.toNat ≤ 6 by omega)
    exact ⟨_, txStep_of_next half next⟩

/-- Every packet has its meaning in a state whose indices name slots. -/
theorem exec_answers {s : State} (h : IndexInv s) (i : Instr) : ∃ t, exec i s = .next t := by
  have loco := List.getElem?_eq_getElem h.loco
  have function := List.getElem?_eq_getElem h.function
  cases hf : i.family with
  | loco =>
    by_cases hi : i = .idle
    · subst hi
      by_cases tag : s.enc.fam = .function
      · exact ⟨_, by rw [show exec .idle s = functionPacket (encode .idle) s from if_pos tag, functionPacket, function]⟩
      · exact ⟨_, by rw [show exec .idle s = idleLocoPacket (encode .idle) s from if_neg tag, idleLocoPacket, loco]⟩
    · exact ⟨_, by rw [exec_loco hf hi, locoPacket, loco]⟩
  | function => exact ⟨_, by rw [exec_function hf, functionPacket, function]⟩
  | accessory =>
    cases i
    case acc => exact ⟨_, rfl⟩
    all_goals cases hf
  | estop =>
    cases i
    case bstop => exact ⟨_, rfl⟩
    all_goals cases hf
  | pom => exact ⟨_, exec_pom hf s⟩
  | service =>
    by_cases hb : built i = true
    · exact ⟨_, exec_service hf hb s⟩
    · obtain ⟨v, b, p, rfl⟩ := eq_writeBit hf hb
      exact ⟨_, rfl⟩

theorem assemble_answers {s : State} (h : IndexInv s) : ∃ f bs, assemble s = some (f, bs) := by
  have loco := List.getElem?_eq_getElem h.loco
  have function := List.getElem?_eq_getElem h.function
  unfold assemble
  split
  · rw [loco]; exact ⟨_, _, rfl⟩
  · rw [function]; exact ⟨_, _, rfl⟩
  all_goals exact ⟨_, _, rfl⟩

theorem encStep_answers {s : State} (inv : Inv s) : ∃ t, encStep s = .next t := by
  cases free : s.shared.free with
  | false => exact ⟨_, by rw [encStep, if_neg (by rw [free]; decide)]⟩
  | true =>
    obtain ⟨f, bs, assembled⟩ := assemble_answers inv.indices
    obtain ⟨i, decoded, -⟩ := assemble_built assembled
    rw [encStep_runs free (by rw [fetch_of_noLoad inv.turns]; exact assembled) decoded]
    exact exec_answers inv.indices i

/-- A host command answers, or is refused as a write to a slot that does not exist. -/
theorem hostStep_answers (c : HostCmd) (s : State) :
    (∃ t, hostStep c s = .next t) ∨
      ∃ i w, c = .locoWrite i w ∧ s.loco.length ≤ i ∧ hostStep c s = .refused .noSuchSlot := by
  cases c
  case locoWrite i w =>
    by_cases below : i < s.loco.length
    · exact .inl ⟨_, by rw [hostStep, hLocoWrite, List.getElem?_eq_getElem below]⟩
    · have none := List.getElem?_eq_none (not_lt.mp below)
      exact .inr ⟨i, w, rfl, not_lt.mp below, by rw [hostStep, hLocoWrite, none]⟩
  all_goals exact .inl ⟨_, rfl⟩

/-- Settles O60: each agent answers, and a packet from outside is excluded. -/
theorem invariantNeverStops : Obligations.InvariantNeverStops := by
  intro s inv
  rw [step_of_config inv.config, agentStep]
  split
  case h_1 =>
    split
    · exact .inl (encStep_answers inv)
    · exact .inl (txStep_answers inv)
  case h_2 => exact .inl (txStep_answers (inv_popTurn inv))
  case h_3 => exact .inl (encStep_answers inv)
  case h_4 c es turn =>
    rcases hostStep_answers c (popTurn s) with next | ⟨i, w, rfl, above, refused⟩
    · exact .inl next
    · exact .inr ⟨i, w, es, turn, above, refused⟩
  case h_5 => exact .inl ⟨_, rfl⟩
  case h_6 turn => have turns := inv.turns; rw [turn] at turns; cases turns

/-! ## The modes -/

/-- Of the claims only the broadcast stop touches the trip (R221). -/
theorem exec_trip {i : Instr} {s t : State} (h : exec i s = .next t) :
    t.power.trip = s.power.trip ∨ i = .bstop := by
  cases exec_next h with
  | loco l _ _ e => left; rw [e, finishLoco_frame]; rfl
  | estop hi _ => exact .inr hi
  | pom _ e => left; rw [e, pomBuild_frame]; rfl
  | service _ _ e => left; rw [e, svcCount_frame, svcBuild_frame]; rfl
  | idle l _ _ e | function l _ _ e | accessory _ e | writeBit _ _ e => left; rw [e]; rfl

/-- Of the host commands only `H_TRIP_CLEAR` clears a trip (R317). -/
theorem hostStep_trip {c : HostCmd} {s t : State} (h : hostStep c s = .next t) (before : s.power.trip = true)
    (after : t.power.trip = false) : c = .tripClear := by
  have stays (e : t.power.trip = s.power.trip) : c = .tripClear := by rw [e, before] at after; cases after
  cases c
  case tripClear => rfl
  case locoWrite i w => obtain ⟨l, -, rfl⟩ := hLocoWrite_next h; exact stays rfl
  case tickConsume i10 u10 i1 =>
    obtain ⟨a, u, c, -, -, -, e⟩ := hTickConsume_samples i10 u10 i1 s
    obtain ⟨p, flag, hp, power⟩ := tickConsume_power a u c s
    cases h
    rw [e, power] at after
    rcases hp with rfl | rfl
    · exact absurd (before.symm.trans after) (by decide)
    · exact absurd ((pmTick10_trip before).symm.trans after) (by decide)
  case writeService cv x verify enter exit =>
    cases h; refine stays ?_; unfold hWriteService; (repeat' split) <;> rfl
  case power on => cases h; refine stays ?_; unfold hPower; split <;> rfl
  case qtick => cases h; refine stays ?_; rw [svcQtick_frame, pomQtick_frame]
  all_goals cases h; exact stays rfl

/-- Of the host commands only `writeServiceCommand` with an enter or exit argument changes the mode (R318). -/
theorem hostStep_mode {c : HostCmd} {s t : State} (h : hostStep c s = .next t) :
    t.power.serviceMode = s.power.serviceMode ∨
      ∃ cv x verify enter exit, c = .writeService cv x verify enter exit ∧ (enter || exit) = true := by
  cases c
  case locoWrite i w => obtain ⟨l, -, rfl⟩ := hLocoWrite_next h; exact .inl rfl
  case tickConsume i10 u10 i1 =>
    obtain ⟨a, u, c, -, -, -, e⟩ := hTickConsume_samples i10 u10 i1 s
    obtain ⟨p, flag, hp, power⟩ := tickConsume_power a u c s
    cases h
    left
    rw [e, power]
    rcases hp with rfl | rfl
    · rfl
    · rw [pmTick10_frame]
  case tripClear => cases h; left; rw [setPower_power, clearTrip_frame]
  case writeService cv x verify enter exit =>
    cases h
    cases argument : enter || exit
    · obtain ⟨rfl, rfl⟩ := Bool.or_eq_false_iff.mp argument
      left; unfold hWriteService; (repeat' split) <;> first | rfl | contradiction
    · exact .inr ⟨cv, x, verify, enter, exit, rfl, argument⟩
  case power on => cases h; left; unfold hPower; split <;> rfl
  case qtick => cases h; left; rw [svcQtick_frame, pomQtick_frame]
  all_goals cases h; exact .inl rfl

/-- The turn of a claim, as `claimDue` names it. -/
theorem claimDue_of_turn {s : State} {f : Family} {bs : List Byte} (free : s.shared.free = true)
    (turn : s.agenda = [] ∨ (∃ es, s.agenda = .enc :: es) ∨ ∃ es, s.agenda = .load f bs :: es) : claimDue s :=
  ⟨free, turn.imp_right (.imp_right fun ⟨es, h⟩ => ⟨f, bs, es, h⟩)⟩

/-- Settles O46, agent by agent. -/
theorem modeChanges : Obligations.ModeChanges := by
  intro s t h
  have unchanged (e : t.power = s.power) :
      ¬ (s.power.trip = true ∧ t.power.trip = false) ∧ ¬ t.power.serviceMode ≠ s.power.serviceMode := by
    rw [e]; exact ⟨fun ⟨a, b⟩ => absurd (a.symm.trans b) (by decide), fun h => h rfl⟩
  cases step_next h with
  | tx _ h =>
    obtain ⟨trip, mode⟩ := unchanged (by rw [txStep_frame h]; rfl)
    exact ⟨fun a b => absurd ⟨a, b⟩ trip, fun changed => absurd changed mode⟩
  | claim i f bs turn free hf hd h =>
    refine ⟨fun before after => ?_, fun changed => absurd (exec_frame h).mode changed⟩
    rcases exec_trip h with same | rfl
    · rw [same, before] at after; cases after
    · obtain rfl : Family.estop = f := (decode_ok hd).2.2.resolve_right fun idle => Instr.noConfusion idle.1
      exact .inr (.inl ⟨claimDue_of_turn free turn, bs, hf⟩)
  | pass _ _ h =>
    obtain ⟨trip, mode⟩ := unchanged (by rw [h]; rfl)
    exact ⟨fun a b => absurd ⟨a, b⟩ trip, fun changed => absurd changed mode⟩
  | host c es turn h =>
    refine ⟨fun before after => ?_, fun changed => ?_⟩
    · obtain rfl := hostStep_trip h before after
      exact .inl ⟨es, turn⟩
    · obtain ⟨cv, x, verify, enter, exit, rfl, argument⟩ := (hostStep_mode h).resolve_left changed
      exact .inl ⟨cv, x, verify, enter, exit, es, turn, argument⟩
  | reset table iLim vLim es turn _ =>
    exact ⟨fun _ _ => .inr (.inr ⟨table, iLim, vLim, es, turn⟩), fun _ => .inr ⟨table, iLim, vLim, es, turn⟩⟩

/-! ## The callback queue -/

/-- Of the host commands only the delivery touches the queue (R323). -/
theorem hostStep_cb {c : HostCmd} {s t : State} (h : hostStep c s = .next t) : t.cb = s.cb ∨ c = .takeCallback := by
  cases c
  case takeCallback => exact .inr rfl
  case locoWrite i w => obtain ⟨l, -, rfl⟩ := hLocoWrite_next h; exact .inl rfl
  case tickConsume i10 u10 i1 =>
    obtain ⟨a, u, c, -, -, -, e⟩ := hTickConsume_samples i10 u10 i1 s
    cases h; left; rw [e, consumeTick1_frame, consumeTick10_frame]
  case writeService cv x verify enter exit => cases h; left; unfold hWriteService; (repeat' split) <;> rfl
  case power on => cases h; left; unfold hPower; split <;> rfl
  case qtick => cases h; left; rw [svcQtick_frame, pomQtick_frame]
  all_goals cases h; exact .inl rfl

/-- An exit action emits an event only at the end of a read (R268). -/
theorem svcExit_cb {s : State} (h : ¬ (s.svc.state = .rdFinal ∧ s.svc.cursor = none)) : (svcExit s).cb = s.cb := by
  unfold svcExit
  split
  case h_1 => rfl
  case h_2 final =>
    unfold rdEval
    split
    case h_1 => rfl
    case h_2 cursor => exact absurd ⟨final, cursor⟩ h
  case h_3 => rfl

/-- A service claim emits an event only where it completes the byte pass of a read. -/
theorem svcPacket_cb {bs : List Byte} {s t : State} (h : svcPacket bs s = .next t) :
    t.cb = s.cb ∨ s.svc.state = .rdFinal ∧ s.svc.cursor = none ∧
      (s.svc.budget = 1 ∨ s.svc.budget = 0 ∧ svcRepeat s.par s.svc.state = 1) := by
  by_cases last : s.svc.budget = 1 ∨ s.svc.budget = 0 ∧ svcRepeat s.par s.svc.state = 1
  · by_cases read : s.svc.state = .rdFinal ∧ s.svc.cursor = none
    · exact .inr ⟨read.1, read.2, last⟩
    · left
      rw [svcPacket_last _ last] at h
      rw [← Host.Outcome.next.inj h, svcExit_cb (by rw [burstEnd_frame]; exact read), burstEnd_frame]
  · left
    obtain ⟨not_one, more⟩ := not_or.mp last
    by_cases first : s.svc.budget = 0
    · rw [svcPacket_first _ first fun e => more ⟨first, e⟩] at h; cases h; rfl
    · rw [svcPacket_later _ first not_one] at h; cases h; rfl

/-- Of the claims only a service packet's touches the queue. -/
theorem exec_cb {i : Instr} {s t : State} (h : exec i s = .next t) :
    t.cb = s.cb ∨ i.family = .service ∧ built i = true := by
  cases exec_next h with
  | loco l _ _ e => left; rw [e, finishLoco_frame]; rfl
  | pom _ e => left; rw [e, pomBuild_frame]; rfl
  | service hf hb _ => exact .inr ⟨hf, hb⟩
  | idle l _ _ e | function l _ _ e | accessory _ e | estop _ e | writeBit _ _ e => left; rw [e]; rfl

/-- Settles O54: the event is that of `BytePassEvaluation`. -/
theorem callbackQueue : Obligations.CallbackQueue := by
  refine ⟨fun _ => rfl, fun s t h => ?_⟩
  cases step_next h with
  | tx _ h => left; rw [txStep_frame h]; rfl
  | claim i f bs turn free hf hd h =>
    rcases exec_cb h with same | ⟨family, hb⟩
    · exact .inl same
    have service : f = .service := by
      rcases (decode_ok hd).2.2 with e | ⟨rfl, -⟩
      · rw [← e, family]
      · cases family
    rcases svcPacket_cb (exec_service family hb s ▸ h) with same | ⟨final, cursor, last⟩
    · exact .inl same
    obtain ⟨t', v, next, value, -, -, e⟩ := bytePassEvaluation i s family hb final cursor (by rwa [final] at last)
    obtain rfl := Host.Outcome.next.inj (h.symm.trans next)
    refine .inr (.inr (.inl ⟨claimDue_of_turn free turn, ⟨bs, service ▸ hf⟩, final, cursor, by rw [e], ?_, ?_⟩))
    · rw [e, value]
      split
      · exact .inl rfl
      · exact .inr rfl
    · rw [e]
  | pass _ _ h => left; rw [h]; rfl
  | host c es turn h =>
    rcases hostStep_cb h with same | rfl
    · exact .inl same
    · exact .inr (.inl ⟨⟨es, turn⟩, (congrArg State.cb (Host.Outcome.next.inj h)).symm⟩)
  | reset table iLim vLim es turn h => exact .inr (.inr (.inr ⟨⟨table, iLim, vLim, es, turn⟩, by rw [h]; rfl⟩))

end Sys2Proof.Machine
end

section
/-! PROOFS. The power monitor (spec/46_power_monitor.md R291 to R297) and the host commands
(spec/47_host_commands.md R311 to R321), each as an equation of the whole next state. -/

namespace Sys2Proof.Machine

/-! ## The power monitor -/

/-- A fifth of the difference (R291). -/
theorem smooth_fifth (x y : Rat) : smooth (1 / 5) x y = x + (y - x) / 5 := by rw [smooth]; ring

/-- A trip check, with the two thresholds written out (R292, R293). -/
theorem tripCheck_eq (p : Power) : tripCheck p =
    if (if p.serviceMode then p.quiescentMA + 250 else p.limitMA) < p.busMA ∨ p.limitVolts < p.busVolts then
      { p with trip := true, enable := false }
    else p := by
  have current : overCurrent p = decide ((if p.serviceMode then p.quiescentMA + 250 else p.limitMA) < p.busMA) := by
    unfold overCurrent Config.svcTripDeltaMA
    cases p.serviceMode <;> rfl
  simp only [tripCheck, current, overVoltage, Bool.or_eq_true, decide_eq_true_eq]
  rfl

/-- Settles O43: both averages, then the trip check. -/
theorem monitorTick : Obligations.MonitorTick := by
  rintro i u ma v p rfl rfl
  rw [pmTick10, tripCheck_eq]
  simp only [Config.emaWeight, Config.voltEmaWeight, smooth_fifth]

theorem pmTick10_busMA (i u : Rat) (p : Power) : (pmTick10 i u p).busMA = p.busMA + (i - p.busMA) / 5 := by
  rw [pmTick10_frame]; exact smooth_fifth _ _

/-- Settles O44: by induction on the number of ticks; each keeps 4/5 of the distance to the sample. -/
theorem movingAverage : Obligations.MovingAverage := by
  intro x u n
  induction n with
  | zero => intro p; simp
  | succ n ih =>
    intro p
    rw [Function.iterate_succ_apply, ih, pmTick10_busMA]
    ring

/-! ## The tick consumer -/

/-- The acknowledgement test of R297, with its 20 mA written out. -/
theorem ackSeen_eq (p : Power) (x : Rat) :
    ackSeen p x = (decide (p.sensorMode = .trigger) && decide (20 < x - p.ackBaseMA)) := rfl

/-- The 10 ms half: the flag is cleared; without the 1 ms flag the detector takes the same sample (R297, R312). -/
theorem consumeTick10_eq (i u : Rat) (s : State) {p : Power}
    (hp : p = if s.shared.tick10 then pmTick10 i u s.power else s.power) :
    consumeTick10 i u s = { s with
      shared := { s.shared with tick10 := false }
      power := { p with ackFlag := p.ackFlag || (!s.par.enable1ms && s.shared.tick10 && ackSeen p i) } } := by
  subst hp
  rw [consumeTick10_frame]
  unfold consumeTick10
  cases s.shared.tick10 <;> cases s.par.enable1ms <;> simp [pmAckSample_eq]

/-- The 1 ms half: the flag, where it exists, is cleared with one sample for the detector (R312). -/
theorem consumeTick1_eq (x : Rat) (s : State) : consumeTick1 x s = { s with
    shared := { s.shared with tick1 := if s.par.enable1ms then false else s.shared.tick1 }
    power := { s.power with
      ackFlag := s.power.ackFlag || (s.par.enable1ms && s.shared.tick1 && ackSeen s.power x) } } := by
  unfold consumeTick1
  rcases s with ⟨⟨d, l, lp, f, a, b⟩, tx, enc, lo, ac, pm, sv, pw, cb, pr, ag⟩
  cases pr.enable1ms <;> cases b <;> simp [setPower, setShared, pmAckSample_eq]

/-- Settles O45: the two halves in turn; at most one of them has a sample for the detector. -/
theorem tickConsumer : Obligations.TickConsumer := by
  intro i10 u10 i1 a u c s p q ha hu hc hp hq
  have sample (kind : Config.SampleKind) (x : Rat) :
      readSample kind s.agenda.length x = if x < 0 then (Config.freeSample kind s.agenda.length x : Rat) else x := rfl
  have halves : hostStep (.tickConsume i10 u10 i1) s = .next (consumeTick1 c (consumeTick10 a u s)) := by
    rw [hostStep, hTickConsume, sample, sample, sample, ← ha, ← hu, ← hc]
  rw [halves, consumeTick10_eq a u s hp, consumeTick1_eq, hq]
  simp only [ackSeen_eq]
  cases s.par.enable1ms <;> simp [Bool.and_left_comm]

/-! ## Service mode -/

/-- Settles O47. -/
theorem serviceModeEntryAndExit : Obligations.ServiceModeEntryAndExit := fun _ _ _ _ _ => ⟨rfl, rfl⟩

theorem pageOf_toNat (cv : Nat) : (pageOf (BitVec.ofNat 11 cv)).toNat = ((cv + 1023) % 1024 / 4 + 1) % 256 := by
  have wire : (cvWire (BitVec.ofNat 11 cv)).toNat = (cv + 1023) % 1024 := by
    rw [cvWire_toNat, BitVec.toNat_ofNat]; omega
  rw [pageOf, BitVec.toNat_add, BitVec.toNat_setWidth, BitVec.toNat_ushiftRight, wire, Nat.shiftRight_eq_div_pow]
  show ((cv + 1023) % 1024 / 4 % 256 + 1) % 256 = _
  omega

theorem regOf_toNat (cv : Nat) : (regOf (BitVec.ofNat 11 cv)).toNat = (cv + 3) % 4 := by
  rw [regOf, BitVec.toNat_setWidth, cvWire_toNat, BitVec.toNat_ofNat]; omega

/-- Cutting a number to its field twice is cutting it once (U16). -/
theorem ofNat_mod (w n : Nat) : BitVec.ofNat w (n % 2 ^ w) = BitVec.ofNat w n :=
  BitVec.eq_of_toNat_eq (by rw [BitVec.toNat_ofNat, BitVec.toNat_ofNat, Nat.mod_mod])

/-- Settles O48: outside and inside service mode. -/
theorem cvCommand : Obligations.CvCommand := by
  refine fun cv x verify s => ⟨fun off => ?_, fun on => ?_⟩
  · rw [hostStep, hWriteService, if_neg (by decide), if_neg (by decide), if_neg (by rw [off]; decide)]
  · refine ⟨armService s.svc cv x verify s.par.svcTimeoutQs, ?_, BitVec.toNat_ofNat .., pageOf_toNat cv, regOf_toNat cv,
      rfl, rfl, rfl, fun read => ?_, fun write => ?_⟩
    · rw [hostStep, hWriteService, if_neg (by decide), if_neg (by decide), if_pos on]; rfl
    · subst read; exact ⟨rfl, rfl, rfl⟩
    · subst write; exact ⟨congrArg some (ofNat_mod 8 x).symm, rfl, rfl⟩

/-! ## Requests, timeouts, power, the table -/

/-- Settles O49: operands wider than their field are cut when they are stored. -/
theorem familyRequests : Obligations.FamilyRequests := by
  refine fun s => ⟨rfl, fun _ _ _ => rfl, fun kind bitMode bitValue bitPos => ?_, fun address cv value _ _ => ?_,
    fun _ => rfl⟩
  · rw [show bitPos % 8 = bitPos % 2 ^ 3 from rfl, ofNat_mod]; rfl
  · rw [show value % 256 = value % 2 ^ 8 from rfl, ofNat_mod]; rfl

/-- The POM half of `H_QTICK`, in closed form (R321). -/
theorem pomQtick_eq (s : State) : pomQtick s = { s with
    pom := if s.pom.timeout = 0 then s.pom
      else if s.pom.timeout = 1 ∧ s.pom.state ≠ .idle then
        { s.pom with timeout := 0, state := .idle, budget := 0 }
      else { s.pom with timeout := s.pom.timeout - 1 } } := by
  unfold pomQtick
  have last : s.pom.timeout - 1 = 0 ↔ s.pom.timeout = 1 := sub_one_eq_zero
  by_cases stopped : s.pom.timeout = 0
  · simp only [if_pos stopped]
  · simp only [if_neg stopped, setPom_pom, last]
    by_cases expires : s.pom.timeout = 1 ∧ s.pom.state ≠ .idle
    · simp only [if_pos expires, pomAbort, setPom, last.mpr expires.1]
    · simp only [if_neg expires]; rfl

/-- The service half of `H_QTICK`, in closed form (R321). -/
theorem svcQtick_eq (s : State) : svcQtick s = { s with
    svc := if s.svc.timeout = 0 then s.svc
      else if s.svc.timeout = 1 ∧ s.svc.state ≠ .idle then
        { s.svc with timeout := 0, state := .idle, budget := 0 }
      else { s.svc with timeout := s.svc.timeout - 1 }
    power := if s.svc.timeout = 1 ∧ s.svc.state ≠ .idle then { s.power with sensorMode := .averaging }
      else s.power } := by
  unfold svcQtick
  have last : s.svc.timeout - 1 = 0 ↔ s.svc.timeout = 1 := sub_one_eq_zero
  by_cases stopped : s.svc.timeout = 0
  · have running : ¬ (s.svc.timeout = 1 ∧ s.svc.state ≠ .idle) := by rw [stopped]; exact fun h => absurd h.1 (by decide)
    simp only [if_pos stopped, if_neg running]
  · simp only [if_neg stopped, setSvc_svc, last]
    by_cases expires : s.svc.timeout = 1 ∧ s.svc.state ≠ .idle
    · simp only [if_pos expires, svcAbort, setSvc, setPower, disarmAck, last.mpr expires.1]
    · simp only [if_neg expires]; rfl

/-- Settles O50: the two halves touch different records. -/
theorem quarterSecondTick : Obligations.QuarterSecondTick := by
  intro s
  rw [hostStep, svcQtick_eq, pomQtick_eq]

/-- Settles O51: with and without a trip. -/
theorem trackPowerCommands : Obligations.TrackPowerCommands := by
  refine fun s => ⟨fun trip => ⟨?_, ?_⟩, fun no_trip => ⟨?_, ?_⟩, rfl⟩
  · rw [hostStep, hPower, if_pos (by rw [trip]; rfl)]
  · rw [hostStep, clearTrip, if_pos trip]; rfl
  · rw [hostStep, clearTrip, if_neg (by rw [no_trip]; decide)]; rfl
  · rw [hostStep, hPower, if_neg (by rw [no_trip]; decide)]; rfl

/-- `H_LOCO_WRITE` to a slot that exists (R311). -/
theorem locoWrite_eq {s : State} {i : Nat} {l : Loco} (slot : s.loco[i]? = some l) (w : LocoWrite) :
    hostStep (.locoWrite i w) s = .next { s with loco := s.loco.set i (writeLocoField l w) } := by
  rw [hostStep, hLocoWrite, slot]; rfl

/-- A stop timer counted down, as a number (R313). -/
theorem countEstop_eq (l : Loco) : countEstop l = { l with estop := BitVec.ofNat 8 (l.estop.toNat - 1) } := by
  unfold countEstop
  split
  case isTrue stopped => rcases l with ⟨a, b, c, d, e, f, g, h, k⟩; cases stopped; rfl
  case isFalse running =>
    have positive : 1 ≤ l.estop.toNat := Nat.pos_of_ne_zero fun e => running (BitVec.eq_of_toNat_eq e)
    have below := l.estop.isLt
    have countdown : l.estop - 1 = BitVec.ofNat 8 (l.estop.toNat - 1) := by
      apply BitVec.eq_of_toNat_eq
      rw [BitVec.toNat_sub_of_le positive, BitVec.toNat_ofNat]
      exact (Nat.mod_eq_of_lt (by omega)).symm
    rw [countdown]

/-- Settles O52: the nine fields, and every slot's timer. -/
theorem locomotiveCommands : Obligations.LocomotiveCommands := by
  refine fun s => ⟨fun i l slot => ?_, ?_⟩
  · exact ⟨fun v => locoWrite_eq slot (.addr v), fun v => locoWrite_eq slot (.useLong v),
      fun v => locoWrite_eq slot (.use128 v), fun v => locoWrite_eq slot (.speedStep v),
      fun v => locoWrite_eq slot (.forward v), fun v => locoWrite_eq slot (.brake v),
      fun v => locoWrite_eq slot (.fn v), fun v => locoWrite_eq slot (.nudge v),
      fun v => locoWrite_eq slot (.estop v)⟩
  · rw [hostStep, hEstopTick, funext countEstop_eq]; rfl

end Sys2Proof.Machine
end

section
/-! PROOFS. Bursts and sequences with an encoder that claims after every copy (spec/41_encoder_core.md R174,
spec/44_pom.md R235, spec/45_service_mode.md R258 to R268). -/

namespace Sys2Proof.Machine

/-! ## Claims in a row -/

theorem claims_cons {n : Nat} {s t u : State} {ps : List (List Byte)} (h : encStep (withFree s) = .next t)
    (h' : claims n t = .next (u, ps)) : claims (n + 1) s = .next (u, sharedPacket t :: ps) := by
  simp only [claims, h, h']

theorem claims_append {m n : Nat} {s t u : State} {ps qs : List (List Byte)} (h : claims m s = .next (t, ps))
    (h' : claims n t = .next (u, qs)) : claims (m + n) s = .next (u, ps ++ qs) := by
  induction m generalizing s ps with
  | zero => cases h; simpa using h'
  | succ m ih =>
    simp only [claims] at h
    cases hs : encStep (withFree s) with
    | fault f => rw [hs] at h; cases h
    | refused r => rw [hs] at h; cases h
    | next s' =>
      simp only [hs] at h
      cases hm : claims m s' with
      | fault f => rw [hm] at h; cases h
      | refused r => rw [hm] at h; cases h
      | next q =>
        obtain ⟨t', rs⟩ := q
        simp only [hm] at h
        cases h
        rw [Nat.add_right_comm]
        exact claims_cons hs (ih hm)

/-- The encoder turn of a running POM request is one call of its BURST. -/
theorem encStep_pom {s : State} (turns : noLoad s.agenda = true) (tag : s.enc.fam = .pom) (running : s.pom.state ≠ .idle) :
    encStep (withFree s) = pomPacket (pomPayload s.pom) (withFree s) := by
  have assembled : assemble (withFree s) = some (.pom, encode (requestPacket s.pom)) := by
    rw [assemble, dispatchFamily_pom (s := withFree s) |>.mpr ⟨tag, running⟩, ← pomPayload_eq]; rfl
  have family := requestPacket_family s.pom
  have decoded : decode .pom (encode (requestPacket s.pom)) = .ok (requestPacket s.pom) := decodePom_encode family
  rw [encStep_runs (s := withFree s) rfl ((fetch_of_noLoad turns).trans assembled) decoded, exec_pom family, pomPayload_eq]

/-- The encoder turn of a running sequence is one call of its state's BURST. -/
theorem encStep_service {s : State} (turns : noLoad s.agenda = true) (tag : s.enc.fam = .service)
    (running : s.svc.state ≠ .idle) :
    encStep (withFree s) = svcPacket (servicePayload s.svc) (withFree s) := by
  have assembled : assemble (withFree s) = some (.service, encode (sequencePacket s.svc)) := by
    rw [assemble, dispatchFamily_service (s := withFree s) |>.mpr ⟨tag, running⟩, ← servicePayload_eq]; rfl
  have family := sequencePacket_family s.svc
  have decoded : decode .service (encode (sequencePacket s.svc)) = .ok (sequencePacket s.svc) :=
    decodeService_encode family
  rw [encStep_runs (s := withFree s) rfl ((fetch_of_noLoad turns).trans assembled) decoded,
    exec_service family (sequencePacket_built s.svc), servicePayload_eq]

/-! ## The POM burst -/

theorem pomPayload_length (p : Pom) : (pomPayload p).length ≤ 5 := by rw [pomPayload_eq]; exact encode_length_le _

/-- A later call of a running POM burst, as the encoder's turn. -/
theorem encStep_pomLater {s : State} (turns : noLoad s.agenda = true) (tag : s.enc.fam = .pom)
    (running : s.pom.state ≠ .idle) (later : s.pom.budget ≠ 0) :
    encStep (withFree s) = .next { s with
      shared := { s.shared with free := false }
      agenda := s.agenda.tail
      pom := { s.pom with
        budget := s.pom.budget - 1
        state := if s.pom.budget = 1 then .idle else s.pom.state } } :=
  (encStep_pom turns tag running).trans (pomPacket_later (pomPayload s.pom) (s := withFree s) later)

/-- The calls that a running POM burst still owes leave the packet in place and end the request (R235). -/
theorem claims_pomRunning (k : Nat) (s : State) (owed : s.pom.budget.toNat = k + 1) (turns : noLoad s.agenda = true)
    (tag : s.enc.fam = .pom) (running : s.pom.state ≠ .idle) :
    ∃ t, claims (k + 1) s = .next (t, List.replicate (k + 1) (sharedPacket s)) ∧
      t = { s with
        shared := { s.shared with free := false }
        agenda := t.agenda
        pom := { s.pom with state := .idle, budget := 0 } } := by
  induction k generalizing s with
  | zero =>
    have last : s.pom.budget = 1 := BitVec.eq_of_toNat_eq owed
    have call := encStep_pomLater turns tag running fun e => by simp [e] at owed
    rw [if_pos last, show s.pom.budget - 1 = 0 from sub_one_eq_zero.mpr last] at call
    exact ⟨_, (claims_cons (n := 0) call rfl :), rfl⟩
  | succ k ih =>
    have more : s.pom.budget ≠ 1 := fun e => by simp [e] at owed
    have countdown : (s.pom.budget - 1).toNat = k + 1 := by
      rw [BitVec.toNat_sub_of_le (show 1 ≤ s.pom.budget.toNat by omega), owed]; rfl
    have call := encStep_pomLater turns tag running fun e => by simp [e] at owed
    rw [if_neg more] at call
    obtain ⟨t, others, e⟩ := ih { s with
      shared := { s.shared with free := false }
      agenda := s.agenda.tail
      pom := { s.pom with budget := s.pom.budget - 1 } } countdown (noLoad_tail turns) tag running
    exact ⟨t, (claims_cons call others :), e⟩

/-- The state after the first call of a POM burst. -/
def pomOpened (s : State) : State :=
  { s with
    shared := (publish (pomPayload s.pom) false (claim (withFree s))).shared
    agenda := s.agenda.tail
    pom := { s.pom with budget := 3 } }

theorem sharedPacket_pomOpened (s : State) : sharedPacket (pomOpened s) = withChecksum (pomPayload s.pom) :=
  sharedPacket_publish (pomPayload_length s.pom) false (claim (withFree s))

/-- Settles O30: the first call publishes, three more leave the packet in place. -/
theorem pomBurst : Obligations.PomBurst := by
  intro s turns tag running budget
  have first : encStep (withFree s) = .next (pomOpened s) :=
    (encStep_pom turns tag running).trans (pomPacket_first (pomPayload s.pom) (s := withFree s) budget)
  obtain ⟨t, others, e⟩ := claims_pomRunning 2 (pomOpened s) rfl (noLoad_tail turns) tag running
  have bursts := claims_cons first others
  rw [sharedPacket_pomOpened] at bursts
  exact ⟨t, bursts, by rw [e]; rfl, by rw [e]; rfl, by rw [e]; rfl, by rw [e]; rfl, by rw [e]; rfl, by rw [e]; rfl⟩

/-! ## The service bursts -/

/-- What the exit action of the running state makes of the records when its burst is complete (R258, R260). -/
def exited (s : State) : State := svcExit (setSvc s { s.svc with budget := 0 })

/-- An exit action does not look at the shared buffer or the agenda. -/
theorem svcExit_buffer (s : State) (b : Shared) (es : List Event) :
    svcExit { s with shared := b, agenda := es } = { svcExit s with shared := b, agenda := es } := by
  cases state : s.svc.state with
  | rdFinal =>
    simp only [svcExit, state, rdEval]
    cases s.svc.cursor <;> rfl
  | _ => simp only [svcExit, state]; rfl

/-- The state after a claim that leaves a service burst running: the buffer `b`, `m` calls owed. -/
def svcMoved (s : State) (b : Shared) (m : BitVec 4) : State :=
  { s with shared := b, agenda := s.agenda.tail, svc := { s.svc with budget := m } }

/-- The exit action that the burst runs in the end does not depend on the calls before it. -/
theorem exited_svcMoved (s : State) (b : Shared) (m : BitVec 4) :
    exited (svcMoved s b m) = { exited s with shared := b, agenda := s.agenda.tail } :=
  svcExit_buffer (setSvc s { s.svc with budget := 0 }) b s.agenda.tail

/-- The completing claim leaves the records to the exit action. -/
theorem svcExit_burstEnd (bs : List Byte) (s : State) :
    svcExit (burstEnd bs (withFree s)) = { s with
      shared := (burstEnd bs (withFree s)).shared
      agenda := s.agenda.tail
      svc := (exited s).svc
      power := (exited s).power
      cb := (exited s).cb } := by
  rw [burstEnd_frame]
  refine (svcExit_buffer (setSvc s { s.svc with budget := 0 }) _ _).trans ?_
  unfold exited
  rw [svcExit_frame]
  rfl

/-- `n` claims that show the packets `ps` and leave of the records only the sequencer, the power record and the
callback port changed, to `v`, `p` and `q`. -/
structure Runs (n : Nat) (ps : List (List Byte)) (v : Svc) (p : Power) (q : List Callback) (s t : State) : Prop where
  run : claims n s = .next (t, ps)
  frame : t = { s with shared := t.shared, agenda := t.agenda, svc := v, power := p, cb := q }
  turns : noLoad t.agenda = true
  long : n ≠ 0 → t.shared.longPreamble = true

theorem Runs.start {s : State} (turns : noLoad s.agenda = true) : Runs 0 [] s.svc s.power s.cb s s :=
  ⟨rfl, rfl, turns, fun h => absurd rfl h⟩

theorem Runs.append {m n : Nat} {ps ps' : List (List Byte)} {v v' : Svc} {p p' : Power} {q q' : List Callback}
    {s t u : State} (h : Runs m ps v p q s t) (h' : Runs n ps' v' p' q' t u) (some_claims : n ≠ 0) :
    Runs (m + n) (ps ++ ps') v' p' q' s u where
  run := claims_append h.run h'.run
  frame := by rw [h'.frame, h.frame]
  turns := h'.turns
  long := fun _ => h'.long some_claims

/-- A claim that leaves the burst running, in front of the calls still owed. -/
theorem Runs.owed {n : Nat} {ps : List (List Byte)} {s u : State} {b : Shared} {m : BitVec 4}
    (call : encStep (withFree s) = .next (svcMoved s b m))
    (h : Runs (n + 1) ps (exited (svcMoved s b m)).svc (exited (svcMoved s b m)).power (exited (svcMoved s b m)).cb
      (svcMoved s b m) u) :
    Runs (n + 1 + 1) (sharedPacket (svcMoved s b m) :: ps) (exited s).svc (exited s).power (exited s).cb s u := by
  rw [exited_svcMoved] at h
  exact ⟨claims_cons call h.run, h.frame, h.turns, fun _ => h.long (Nat.succ_ne_zero n)⟩

/-- The claim that completes a burst. -/
theorem runs_last {s : State} (turns : noLoad s.agenda = true) (tag : s.enc.fam = .service)
    (running : s.svc.state ≠ .idle)
    (last : s.svc.budget = 1 ∨ s.svc.budget = 0 ∧ svcRepeat s.par s.svc.state = 1)
    (long : (burstEnd (servicePayload s.svc) (withFree s)).shared.longPreamble = true) :
    ∃ t, Runs 1 [sharedPacket (burstEnd (servicePayload s.svc) (withFree s))]
      (exited s).svc (exited s).power (exited s).cb s t := by
  have call := (encStep_service turns tag running).trans (svcPacket_last (servicePayload s.svc) (s := withFree s) last)
  rw [svcExit_burstEnd] at call
  exact ⟨_, (claims_cons (n := 0) call rfl :), rfl, noLoad_tail turns, fun _ => long⟩

/-- The claims that a running burst still owes leave the packet in place; the last one runs the exit action. -/
theorem runs_owed (k : Nat) (s : State) (owed : s.svc.budget.toNat = k + 1) (turns : noLoad s.agenda = true)
    (tag : s.enc.fam = .service) (running : s.svc.state ≠ .idle) (long : s.shared.longPreamble = true) :
    ∃ t, Runs (k + 1) (List.replicate (k + 1) (sharedPacket s)) (exited s).svc (exited s).power (exited s).cb s t := by
  have later : s.svc.budget ≠ 0 := fun e => by simp [e] at owed
  induction k generalizing s with
  | zero =>
    have kept : (burstEnd (servicePayload s.svc) (withFree s)).shared = { s.shared with free := false } := by
      rw [burstEnd, svcBuild_running (show (claim (withFree s)).svc.budget ≠ 0 from later)]; rfl
    obtain ⟨t, h⟩ := runs_last turns tag running (.inl (BitVec.eq_of_toNat_eq owed)) (by rw [kept]; exact long)
    rw [sharedPacket_congr (t := { s with shared := { s.shared with free := false } }) kept] at h
    exact ⟨t, h⟩
  | succ k ih =>
    have more : s.svc.budget ≠ 1 := fun e => by simp [e] at owed
    have countdown : (s.svc.budget - 1).toNat = k + 1 := by
      rw [BitVec.toNat_sub_of_le (show 1 ≤ s.svc.budget.toNat by omega), owed]; rfl
    have call : encStep (withFree s) = .next (svcMoved s { s.shared with free := false } (s.svc.budget - 1)) :=
      (encStep_service turns tag running).trans (svcPacket_later (servicePayload s.svc) (s := withFree s) later more)
    obtain ⟨t, h⟩ := ih (svcMoved s { s.shared with free := false } (s.svc.budget - 1)) countdown (noLoad_tail turns)
      tag running long fun e => by rw [show s.svc.budget - 1 = 0 from e] at countdown; cases countdown
    exact ⟨t, (h.owed call :)⟩

/-- The state after the first call of a service burst of more than one packet. -/
def svcOpened (s : State) : State :=
  svcMoved s (publish (servicePayload s.svc) true (claim (withFree s))).shared (svcRepeat s.par s.svc.state - 1)

theorem sharedPacket_published (s : State) :
    sharedPacket (publish (servicePayload s.svc) true (claim (withFree s))) = withChecksum (servicePayload s.svc) :=
  sharedPacket_publish (by rw [servicePayload_eq]; exact encode_length_le _) true _

theorem sharedPacket_svcOpened (s : State) : sharedPacket (svcOpened s) = withChecksum (servicePayload s.svc) :=
  sharedPacket_published s

/-- The claims of a whole burst: its state's packet as often as its count says (R174, R258). -/
theorem runs_burst {s : State} (turns : noLoad s.agenda = true) (tag : s.enc.fam = .service)
    (running : s.svc.state ≠ .idle) (idle : s.svc.budget = 0) {n : Nat}
    (count : (svcRepeat s.par s.svc.state).toNat = n + 1) :
    ∃ t, Runs (n + 1) (List.replicate (n + 1) (withChecksum (servicePayload s.svc)))
      (exited s).svc (exited s).power (exited s).cb s t := by
  cases n with
  | zero =>
    have one : svcRepeat s.par s.svc.state = 1 := BitVec.eq_of_toNat_eq count
    have published : (burstEnd (servicePayload s.svc) (withFree s)).shared =
        (publish (servicePayload s.svc) true (claim (withFree s))).shared := by
      rw [burstEnd, svcBuild_first (show (claim (withFree s)).svc.budget = 0 from idle)]; rfl
    obtain ⟨t, h⟩ := runs_last turns tag running (.inr ⟨idle, one⟩) (by rw [published]; rfl)
    rw [sharedPacket_congr published, sharedPacket_published] at h
    exact ⟨t, h⟩
  | succ n =>
    have more : svcRepeat s.par s.svc.state ≠ 1 := fun e => by rw [e] at count; exact absurd count (by simp)
    have owed : (svcRepeat s.par s.svc.state - 1).toNat = n + 1 := by
      rw [BitVec.toNat_sub_of_le (show 1 ≤ (svcRepeat s.par s.svc.state).toNat by omega), count]; rfl
    have call : encStep (withFree s) = .next (svcOpened s) :=
      (encStep_service turns tag running).trans (svcPacket_first (servicePayload s.svc) (s := withFree s) idle more)
    obtain ⟨t, others⟩ := runs_owed n (svcOpened s) owed (noLoad_tail turns) tag running rfl
    have h := Runs.owed call others
    rw [← svcOpened, sharedPacket_svcOpened] at h
    exact ⟨t, h⟩

/-- A run goes on with the burst of the state that it reached. -/
theorem Runs.burst {m : Nat} {ps : List (List Byte)} {v : Svc} {p : Power} {q : List Callback} {s t : State}
    (h : Runs m ps v p q s t) (tag : s.enc.fam = .service) (running : v.state ≠ .idle) (idle : v.budget = 0) {n : Nat}
    (count : (svcRepeat s.par v.state).toNat = n) (some_packets : n ≠ 0) :
    ∃ u, Runs (m + n) (ps ++ List.replicate n (withChecksum (servicePayload v)))
      (exited { s with svc := v, power := p, cb := q }).svc (exited { s with svc := v, power := p, cb := q }).power
      (exited { s with svc := v, power := p, cb := q }).cb s u := by
  obtain ⟨k, rfl⟩ := Nat.exists_eq_succ_of_ne_zero some_packets
  obtain ⟨u, h'⟩ := runs_burst (s := t) h.turns (by rw [h.frame]; exact tag) (by rw [h.frame]; exact running)
    (by rw [h.frame]; exact idle) (by rw [h.frame]; exact count)
  have records : exited t =
      { exited { s with svc := v, power := p, cb := q } with shared := t.shared, agenda := t.agenda } := by
    rw [h.frame]; exact svcExit_buffer (setSvc { s with svc := v, power := p, cb := q } { v with budget := 0 }) _ _
  have payload : t.svc = v := by rw [h.frame]
  rw [records, payload] at h'
  exact ⟨u, h.append h' some_packets⟩

/-- A record in its running state, with no burst begun. -/
theorem svc_at {v : Svc} {st : SvcState} (state : v.state = st) (idle : v.budget = 0) :
    v = { v with state := st, budget := 0 } := by rw [← state, ← idle]

/-- The burst of a state without an exit action. -/
theorem Runs.plain {m : Nat} {ps : List (List Byte)} {v : Svc} {st : SvcState} {p : Power} {q : List Callback}
    {s t : State} (h : Runs m ps { v with state := st, budget := 0 } p q s t) (tag : s.enc.fam = .service)
    {n : Nat} (count : (svcRepeat s.par st).toNat = n) (some_packets : n ≠ 0) (bs : List Byte)
    (packet : servicePayload { v with state := st, budget := 0 } = bs) {st' : SvcState}
    (successor : st ≠ .idle ∧ st ≠ .rdVerify ∧ st ≠ .rdFinal ∧ svcSuccessor st = st') :
    ∃ u, Runs (m + n) (ps ++ List.replicate n (withChecksum bs)) { v with state := st', budget := 0 } p q s u := by
  obtain ⟨running, not_verify, not_final, rfl⟩ := successor
  subst packet
  have burst := h.burst tag running rfl count some_packets
  rw [exited, svcExit_plain not_verify not_final] at burst
  exact burst

/-- Settles O31: five bursts. -/
theorem pagedWriteSequence : Obligations.PagedWriteSequence := by
  intro s b turns tag state idle data
  have start := Runs.start turns
  rw [svc_at state idle] at start
  have known : dataByte s.svc.data = b := by rw [data]; rfl
  obtain ⟨_, h⟩ := start.plain tag (n := 3) rfl (by decide) [0x00, 0x00] rfl (st' := .pgPgWrite) (by decide)
  obtain ⟨_, h⟩ := h.plain tag (n := 5) rfl (by decide) [0x7D, s.svc.page] rfl (st' := .pgReset) (by decide)
  obtain ⟨_, h⟩ := h.plain tag (n := 6) rfl (by decide) [0x00, 0x00] rfl (st' := .pgWrite) (by decide)
  obtain ⟨_, h⟩ := h.plain tag (n := 5) rfl (by decide) [0x78 ||| s.svc.reg.setWidth 8, b]
    (by rw [← known]; rfl) (st' := .pgReset2) (by decide)
  obtain ⟨t, h⟩ := h.plain tag (n := 10) rfl (by decide) [0x00, 0x00] rfl (st' := .idle) (by decide)
  have frame := h.frame
  exact ⟨t, h.run, by rw [frame], by rw [frame], by rw [frame], by rw [frame], by rw [frame], h.long (by decide)⟩

/-- Settles O32: three bursts. -/
theorem directWriteSequence : Obligations.DirectWriteSequence := by
  intro s v b turns tag state idle data cv some_starts some_writes some_resets
  have start := Runs.start turns
  rw [svc_at state idle] at start
  obtain rfl : v = cvWire s.svc.cv := BitVec.eq_of_toNat_eq (by rw [cv, cvWire_toNat])
  have known : dataByte s.svc.data = b := by rw [data]; rfl
  have positive {n : BitVec 4} (h : n ≠ 0) : n.toNat ≠ 0 := fun e => h (BitVec.eq_of_toNat_eq e)
  obtain ⟨_, h⟩ := start.plain tag rfl (positive some_starts) [0x00, 0x00] rfl (st' := .dWrite) (by decide)
  obtain ⟨_, h⟩ := h.plain tag rfl (positive some_writes) (encode (.svcWrbyte (cvWire s.svc.cv) b))
    (by rw [servicePayload_eq, ← known]; rfl) (st' := .dReset) (by decide)
  obtain ⟨t, h⟩ := h.plain tag rfl (positive some_resets) [0x00, 0x00] rfl (st' := .idle) (by decide)
  have run := h.run
  have frame := h.frame
  rw [Nat.zero_add] at run
  exact ⟨t, run, by rw [frame], by rw [frame], by rw [frame], by rw [frame], by rw [frame],
    h.long (Nat.ne_of_gt (Nat.add_pos_right _ (Nat.pos_of_ne_zero (positive some_resets))))⟩

/-! ## The read -/

/-- The default counts of the read sequence (D26). -/
structure ReadCounts (par : Params) : Prop where
  start : par.nRdStart = 3
  verify : par.nRdVerify = 5
  reset : par.nRdReset = 6
  final : par.nRdFinal = 3

/-- The burst of `RD_VERIFY` arms the detector (R265). -/
theorem Runs.verify {m : Nat} {ps : List (List Byte)} {v : Svc} {p : Power} {q : List Callback} {s t : State}
    (h : Runs m ps { v with state := .rdVerify, budget := 0 } p q s t) (tag : s.enc.fam = .service)
    {n : Nat} (count : s.par.nRdVerify.toNat = n) (some_packets : n ≠ 0) :
    ∃ ps' u, Runs (m + n) ps' { v with state := .rdReset, budget := 0 } (armAck p) q s u := by
  obtain ⟨u, burst⟩ := h.burst tag (by simp) rfl count some_packets
  exact ⟨_, u, burst⟩

/-- The first three bursts of a pass, up to `RD_FINAL` (R264). -/
theorem Runs.toFinal {m : Nat} {ps : List (List Byte)} {v : Svc} {p : Power} {q : List Callback} {s t : State}
    (h : Runs m ps { v with state := .rdStart, budget := 0 } p q s t) (tag : s.enc.fam = .service)
    (counts : ReadCounts s.par) :
    ∃ ps' u, Runs (m + 14) ps' { v with state := .rdFinal, budget := 0 } (armAck p) q s u := by
  obtain ⟨_, h⟩ := h.plain tag (n := 3) (congrArg BitVec.toNat counts.start) (by decide) [0x00, 0x00] rfl
    (st' := .rdVerify) (by decide)
  obtain ⟨_, _, h⟩ := h.verify tag (n := 5) (congrArg BitVec.toNat counts.verify) (by decide)
  obtain ⟨u, h⟩ := h.plain tag (n := 6) (congrArg BitVec.toNat counts.reset) (by decide) [0x00, 0x00] rfl
    (st' := .rdFinal) (by decide)
  exact ⟨_, u, h⟩

/-- A bit pass without an acknowledgement keeps the byte and moves the cursor down (R266). -/
theorem Runs.bitPass {m : Nat} {ps : List (List Byte)} {v : Svc} {p : Power} {q : List Callback} {s t : State}
    {k : BitVec 3} (h : Runs m ps { v with state := .rdStart, budget := 0, cursor := some k } p q s t)
    (tag : s.enc.fam = .service) (counts : ReadCounts s.par) :
    ∃ ps' u, Runs (m + 17) ps' { v with state := .rdStart, budget := 0, cursor := cursorBelow k } (armAck p) q s u := by
  obtain ⟨_, _, h⟩ := Runs.toFinal (v := { v with cursor := some k }) h tag counts
  obtain ⟨u, burst⟩ := h.burst tag (by simp) rfl (n := 3) (congrArg BitVec.toNat counts.final) (by decide)
  exact ⟨_, u, burst⟩

/-- The bit passes from bit `k` down to bit 0. -/
theorem Runs.bitPasses {v : Svc} {q : List Callback} {s : State} (tag : s.enc.fam = .service)
    (counts : ReadCounts s.par) (j : Nat) {m : Nat} {ps : List (List Byte)} {p : Power} {t : State} {k : BitVec 3}
    (cursor : k.toNat = j) (h : Runs m ps { v with state := .rdStart, budget := 0, cursor := some k } p q s t) :
    ∃ ps' u, Runs (m + 17 * (j + 1)) ps' { v with state := .rdStart, budget := 0, cursor := none } (armAck p) q s u := by
  obtain ⟨ps', u, pass⟩ := h.bitPass tag counts
  induction j generalizing m ps p t k ps' u with
  | zero =>
    obtain rfl : k = 0 := BitVec.eq_of_toNat_eq cursor
    exact ⟨ps', u, pass⟩
  | succ j ih =>
    have more : k ≠ 0 := fun e => by simp [e] at cursor
    have below : (k - 1).toNat = j := by
      rw [BitVec.toNat_sub_of_le (show 1 ≤ k.toNat by omega), cursor]; rfl
    rw [cursorBelow, if_neg more] at pass
    obtain ⟨_, _, next⟩ := pass.bitPass tag counts
    have rest := ih below pass _ _ next
    rwa [show m + 17 * (j + 1 + 1) = m + 17 + 17 * (j + 1) by omega]

/-- The byte-verify pass without an acknowledgement reports unknown (R267, R268). -/
theorem Runs.bytePass {m : Nat} {ps : List (List Byte)} {v : Svc} {p : Power} {q : List Callback} {s t : State}
    (h : Runs m ps { v with state := .rdStart, budget := 0, cursor := none } p q s t)
    (tag : s.enc.fam = .service) (counts : ReadCounts s.par) :
    ∃ ps' u, Runs (m + 17) ps' { v with state := .idle, budget := 0, cursor := none, data := none }
      (disarmAck (armAck p)) (q ++ [⟨v.cv, none⟩]) s u := by
  obtain ⟨_, _, h⟩ := Runs.toFinal (v := { v with cursor := none }) h tag counts
  obtain ⟨u, burst⟩ := h.burst tag (by simp) rfl (n := 3) (congrArg BitVec.toNat counts.final) (by decide)
  exact ⟨_, u, burst⟩

/-- Settles O33: eight bit passes and the byte-verify pass. -/
theorem unacknowledgedRead : Obligations.UnacknowledgedRead := by
  intro s turns tag state idle cursor data start verify reset final
  have counts : ReadCounts s.par := ⟨start, verify, reset, final⟩
  have first : s.svc = { s.svc with state := .rdStart, budget := 0, cursor := some 7 } := by
    rw [← state, ← idle, ← cursor]
  have run := Runs.start turns
  rw [first] at run
  obtain ⟨_, _, run⟩ := run.bitPasses tag counts 7 rfl
  obtain ⟨ps, t, run⟩ := run.bytePass tag counts
  have frame := run.frame
  exact ⟨t, ps, run.run, by rw [frame], by rw [frame], by rw [frame]; rfl, by rw [frame]; rfl, by rw [frame],
    by rw [frame]⟩

end Sys2Proof.Machine
end

section
/-! PROOFS. From reset to the first packets (spec/70_reset_and_hazards.md R382, spec/40_transmitter.md R143 to R146). -/

namespace Sys2Proof.Machine

/-! ## Runs of the machine -/

/-- A run with one more step at its end. -/
theorem run_succ {k : Nat} {s t u : State} (h : Host.Core.run core k s = .next t) (h' : step t = .next u) :
    Host.Core.run core (k + 1) s = .next u := by
  induction k generalizing s with
  | zero =>
    cases h
    have last : core.step t = .next u := h'
    simp only [Host.Core.run, last]
  | succ k ih =>
    simp only [Host.Core.run] at h ⊢
    cases hs : core.step s with
    | next s' => simp only [hs] at h ⊢; exact ih h
    | fault f => simp only [hs] at h; cases h
    | refused r => simp only [hs] at h; cases h

/-! ## The first preamble -/

/-- The machine `t` on its way from `s` through a preamble, at countdown `c`: only the transmitter's record, the tick
flags and the agenda moved. -/
structure InPreamble (c : Nat) (half : Bool) (es : List Event) (s t : State) : Prop where
  rest : t = { s with
    shared := { s.shared with tick10 := t.shared.tick10, tick1 := t.shared.tick1 }
    tx := t.tx
    agenda := es }
  count : t.tx.cnt.toNat = c
  index : t.tx.bi = 0
  half : t.tx.half = half

theorem InPreamble.config {c : Nat} {half : Bool} {es : List Event} {s t : State} (h : InPreamble c half es s t)
    (config : configStop s = none) : configStop t = none := by
  rw [← config, h.rest]; exact configStop_congr rfl rfl

/-- A scheduled TX turn is a TX step. -/
theorem InPreamble.step {c : Nat} {half : Bool} {es : List Event} {s t : State} (h : InPreamble c half (.tx :: es) s t)
    (config : configStop s = none) : step t = txStep (popTurn t) := by
  have agenda : t.agenda = .tx :: es := by rw [h.rest]
  rw [step_of_config (h.config config), agentStep, agenda]

theorem InPreamble.popTurn {c : Nat} {half : Bool} {es : List Event} {s t : State}
    (h : InPreamble c half (.tx :: es) s t) : InPreamble c half es s (popTurn t) := by
  have agenda : t.agenda = .tx :: es := by rw [h.rest]
  refine ⟨?_, h.count, h.index, h.half⟩
  rw [popTurn_of_cons agenda, h.rest]

/-- A TX step on the way moves the handoff flag at most besides. -/
theorem InPreamble.txStep_frame {c : Nat} {half : Bool} {es : List Event} {s t u : State} (h : InPreamble c half es s t)
    (hu : txStep t = .next u) {flag : Bool} (free : u.shared.free = flag) : u = { s with
      shared := { s.shared with free := flag, tick10 := u.shared.tick10, tick1 := u.shared.tick1 }
      tx := u.tx
      agenda := es } := by
  have frame := Machine.txStep_frame hu
  rw [free, h.rest] at frame
  exact frame

/-- A TX step goes on if it leaves the handoff flag as it was. -/
theorem InPreamble.next {c c' : Nat} {half half' : Bool} {es : List Event} {s t u : State} (h : InPreamble c half es s t)
    (hu : txStep t = .next u) (free : u.shared.free = t.shared.free) (count : u.tx.cnt.toNat = c') (index : u.tx.bi = 0)
    (half_u : u.tx.half = half') : InPreamble c' half' es s u :=
  ⟨h.txStep_frame hu (by rw [free, h.rest]), count, index, half_u⟩

/-- The second half-period of a bit. -/
theorem InPreamble.second {c : Nat} {es : List Event} {s t : State} (h : InPreamble c true es s t) :
    ∃ u, txStep t = .next u ∧ InPreamble c false es s u := by
  have call : txStep t = .next (txTicks (halfPeriod t.tx.cur) (secondHalf t)) := if_pos h.half
  refine ⟨_, call, h.next call ?_ ?_ ?_ ?_⟩ <;> rw [txTicks_frame]
  · rfl
  · exact h.count
  · exact h.index
  · rfl

/-- The first half-period of a bit, with another preamble position to come; the flag is false already, so that the lock
changes nothing. -/
theorem InPreamble.first {c : Nat} {es : List Event} {s t : State} (h : InPreamble (c + 1) false es s t) (hc : 9 ≤ c)
    (locked : s.shared.free = false) : ∃ u, txStep t = .next u ∧ InPreamble c true es s u := by
  have position : 9 < (startBit t).tx.cnt.toNat := by rw [show (startBit t).tx.cnt = t.tx.cnt from rfl, h.count]; omega
  have flag : t.shared.free = false := by rw [h.rest]; exact locked
  have call := txStep_of_next h.half (preamblePosition _ position)
  refine ⟨_, call, h.next call ?_ ?_ ?_ ?_⟩ <;> rw [txTicks_frame]
  · exact (ite_eq_left_iff.mpr fun _ => flag).trans flag.symm
  · have countdown : (t.tx.cnt - 1).toNat = c := by
      rw [BitVec.toNat_sub_of_le (show 1 ≤ t.tx.cnt.toNat by rw [h.count]; omega), h.count]; rfl
    exact countdown
  · exact h.index
  · rfl

/-- The machine `t` after the copy that ends the preamble of `s`. -/
structure FirstCopy (es : List Event) (s t : State) : Prop where
  rest : t = { s with
    shared := { s.shared with free := true, tick10 := t.shared.tick10, tick1 := t.shared.tick1 }
    tx := t.tx
    agenda := es }
  buf : t.tx.buf = { data := s.shared.data, len := s.shared.len }
  count : t.tx.cnt = 8
  separator : t.tx.q = false

/-- The byte start behind the preamble copies the shared packet (R146). -/
theorem InPreamble.copy {es : List Event} {s t : State} (h : InPreamble 9 false es s t) (not_empty : s.shared.len ≠ 0)
    (len : s.shared.len.toNat ≤ 6) : ∃ u, txStep t = .next u ∧ FirstCopy es s u := by
  have same : t.shared.data = s.shared.data ∧ t.shared.len = s.shared.len := by rw [h.rest]; exact ⟨rfl, rfl⟩
  have position : (startBit t).tx.cnt = 9 := BitVec.eq_of_toNat_eq h.count
  have copy := (byteStartPosition (startBit t) position).1 h.index (by rw [← same.2] at not_empty; exact not_empty)
    (by rw [← same.2] at len; exact len)
  have call := txStep_of_next h.half copy
  refine ⟨_, call, h.txStep_frame call (by rw [txTicks_frame]; rfl), ?_, ?_, ?_⟩ <;> rw [txTicks_frame]
  · rw [← same.1, ← same.2]; rfl
  · rfl
  · rfl

/-! ## The first packets -/

/-- The turns of R382: 29 TX steps and a claim, of which `k` TX steps are done. -/
def bootTurns (k : Nat) : List Event := List.replicate (29 - k) .tx ++ [.enc]

theorem bootTurns_cons {k : Nat} (h : k ≤ 28) : bootTurns k = .tx :: bootTurns (k + 1) := by
  rw [bootTurns, show 29 - k = 29 - (k + 1) + 1 by omega]; rfl

/-- The first `k` steps of a machine that starts at the first position of a short preamble: two to a bit. -/
theorem run_preamble {s : State} (config : configStop s = none) (start : InPreamble 23 false (bootTurns 0) s s)
    (locked : s.shared.free = false) (k : Nat) (h : k ≤ 28) :
    ∃ t, Host.Core.run core k s = .next t ∧ InPreamble (23 - (k + 1) / 2) (decide (k % 2 = 1)) (bootTurns k) s t := by
  induction k with
  | zero => exact ⟨s, rfl, start⟩
  | succ k ih =>
    obtain ⟨t, run, at_k⟩ := ih (by omega)
    rw [bootTurns_cons (by omega)] at at_k
    have step := at_k.step config
    rcases Nat.mod_two_eq_zero_or_one k with even | odd
    · have turn := at_k.popTurn
      rw [show 23 - (k + 1) / 2 = 23 - (k + 1 + 1) / 2 + 1 by omega, show decide (k % 2 = 1) = false by simp [even]] at turn
      obtain ⟨u, tx, at_u⟩ := turn.first (by omega) locked
      exact ⟨u, run_succ run (step.trans tx), by rwa [show decide ((k + 1) % 2 = 1) = true by simp; omega]⟩
    · have turn := at_k.popTurn
      rw [show decide (k % 2 = 1) = true by simp [odd]] at turn
      obtain ⟨u, tx, at_u⟩ := turn.second
      rw [show 23 - (k + 1) / 2 = 23 - (k + 1 + 1) / 2 by omega] at at_u
      exact ⟨u, run_succ run (step.trans tx), by rwa [show decide ((k + 1) % 2 = 1) = false by simp; omega]⟩

/-- A claim under the tag LOCO publishes the packet of the slot at the index and hands the tag on (R195, R199). -/
theorem locoClaim {s : State} {l : Loco} (turns : noLoad s.agenda = true) (free : s.shared.free = true)
    (tag : s.enc.fam = .loco) (slot : s.loco[s.enc.li]? = some l) :
    ∃ u, encStep s = .next u ∧ Published (locoPayload l) false s u ∧ u.enc.fam = .function := by
  have assembled : assemble s = some (.loco, locoPayload l) := by
    rw [assemble, dispatchFamily_loco.mpr (.inl tag), slot]; rfl
  obtain ⟨i, decoded, payload, -, -⟩ := assemble_built assembled
  rw [encStep_runs free ((fetch_of_noLoad turns).trans assembled) decoded, ← payload]
  by_cases idle : i = .idle
  · subst idle
    obtain ⟨below, -⟩ := List.getElem?_eq_some_iff.mp slot
    obtain ⟨u, run, published, frame⟩ := (idlePacketCompletes s).2 (by rw [tag]; decide) below
    exact ⟨u, run, published, by rw [frame]⟩
  · have family : i.family = .loco := (decode_ok decoded).2.2.resolve_right fun h => idle h.1
    obtain ⟨u, run, published, frame⟩ := locoPacketCompletes i s l family idle slot
    exact ⟨u, run, published, by rw [frame]⟩

/-- Settles O56: the preamble, the copy, the claim. -/
theorem firstPacketsAfterReset : Obligations.FirstPacketsAfterReset := by
  rintro par n b table iLim vLim s rfl config
  set s := State.boot par (n + 1) (b :: table) iLim vLim (List.replicate 29 .tx ++ [.enc])
  have start : InPreamble 23 false (bootTurns 0) s s := ⟨rfl, rfl, rfl, rfl⟩
  obtain ⟨t28, run28, at28⟩ := run_preamble config start rfl 28 le_rfl
  rw [bootTurns_cons le_rfl] at at28
  obtain ⟨t, tx, copy⟩ := (at28.popTurn : InPreamble 9 false _ _ _).copy
    (show (3 : BitVec 3) ≠ 0 by decide) (show 3 ≤ 6 by decide)
  have run29 := run_succ run28 ((at28.step config).trans tx)
  have free : t.shared.free = true := by rw [copy.rest]
  have agenda : t.agenda = [.enc] := by rw [copy.rest]; rfl
  obtain ⟨u, claimed, published, tag⟩ := locoClaim (l := bootSlot b) (by rw [agenda]; rfl) free (by rw [copy.rest]; rfl)
    (by rw [copy.rest]; rfl)
  have claim_step : step t = .next u := by
    rw [step_of_config (by rw [← config, copy.rest]; exact configStop_congr rfl rfl), agentStep, agenda]; exact claimed
  refine ⟨fun k hk => ?_, ⟨t, run29, free, ?_, copy.count, copy.separator⟩,
    u, run_succ run29 claim_step, published.free, published.packet, tag⟩
  · obtain ⟨v, run, at_k⟩ := run_preamble config start rfl k hk
    exact ⟨v, run, by rw [at_k.rest]; rfl⟩
  · rw [txPacket, copy.buf]; rfl

end Sys2Proof.Machine
end

section
/-! PROOFS. Legal addresses and the reserved first bytes 0xE8 to 0xFE (spec/20_memory.md R71 to R73,
spec/30_encoding.md R120). -/

namespace Sys2Proof.Machine

/-! ## First bytes -/

theorem reservedFirst_append {bs : List Byte} (h : bs ≠ []) (cs : List Byte) :
    reservedFirst (bs ++ cs) = reservedFirst bs := by
  cases bs with
  | nil => exact absurd rfl h
  | cons b bs => rfl

/-- A first byte below 0xE8 is not reserved. -/
theorem reservedFirst_of_lt {b : Byte} (h : b.toNat < 0xE8) (bs : List Byte) : reservedFirst (b :: bs) = false :=
  decide_eq_false fun reserved => absurd reserved.1 (by omega)

theorem reservedFirst_short (a : BitVec 7) (bs : List Byte) : reservedFirst (shortBytes a ++ bs) = false := by
  have first : ∀ x : BitVec 7, (0#1 ++ x : Byte).toNat < 0xE8 := by decide
  exact reservedFirst_of_lt (first a) _

/-- The six upper bits of a legal long address are at most 39, so that the first byte is at most 0xE7. -/
theorem reservedFirst_long {a : BitVec 14} (h : longLegal a = true) (bs : List Byte) :
    reservedFirst (longBytes a ++ bs) = false := by
  have first : ∀ x : BitVec 6, x.toNat ≤ 39 → (3#2 ++ x : Byte).toNat < 0xE8 := by decide
  have range : a.toNat ≤ 10239 := of_decide_eq_true ((Bool.and_eq_true _ _).mp h).2
  have upper : (a.extractLsb' 8 6).toNat ≤ 39 := by
    rw [BitVec.extractLsb'_toNat, Nat.shiftRight_eq_div_pow]
    have : a.toNat / 2 ^ 8 % 2 ^ 6 ≤ a.toNat / 2 ^ 8 := Nat.mod_le _ _
    omega
  exact reservedFirst_of_lt (first _ upper) _

theorem reservedFirst_acc (board : BitVec 9) (pair : BitVec 2) (r : Bool) (bs : List Byte) :
    reservedFirst (accBytes board pair r ++ bs) = false := by
  have first : ∀ x : BitVec 6, (2#2 ++ x : Byte).toNat < 0xE8 := by decide
  exact reservedFirst_of_lt (first _) _

theorem reservedFirst_svcCv (cc : BitVec 2) (v : BitVec 10) (bs : List Byte) :
    reservedFirst (svcCvBytes cc v ++ bs) = false := by
  have first : ∀ cc x : BitVec 2, (7#4 ++ cc ++ x : Byte).toNat < 0xE8 := by decide
  exact reservedFirst_of_lt (first _ _) _

/-- No packet of a legal address begins with a reserved byte (R120 a). -/
theorem reservedFirst_encode {i : Instr} (h : i.legal = true) : reservedFirst (encode i) = false := by
  cases i <;> simp only [encode, List.append_assoc]
  case idle | bstop | svcReset | svcPgwr => rfl
  case spd28S | spd128S | estop28S | estop128S | fg1S | fg2S | fg3S | pomwbS | pombitS => exact reservedFirst_short _ _
  case spd28L | spd128L | estop28L | estop128L | fg1L | fg2L | fg3L | pomwbL | pombitL => exact reservedFirst_long h _
  case acc board pair r => exact reservedFirst_acc board pair r []
  case pomwbA | pombitA => exact reservedFirst_acc _ _ _ _
  case svcRegwr reg data =>
    have first : ∀ x : BitVec 2, (30#6 ++ x : Byte).toNat < 0xE8 := by decide
    exact reservedFirst_of_lt (first reg) _
  case svcWrbyte | svcVfbyte | svcVfbit | svcWrbit => exact reservedFirst_svcCv _ _ _

/-! ## DISPATCH from legal records -/

/-- The bytes of a packet are read as a packet of the same address: itself, or for the stop codes the emergency stop
(R202, R203). -/
theorem decode_legal (i : Instr) : ∃ j : Instr, decode i.family (encode i) = .ok j ∧ j.legal = i.legal := by
  by_cases wf : i.wf = true
  · exact ⟨i, decode_encode wf, rfl⟩
  · cases i
    case spd28S a d code =>
      obtain rfl : code = 1#5 := by simpa [Instr.wf, speed28Free] using wf
      exact ⟨.estop28S a d, decode_encode (i := .estop28S a d) rfl, rfl⟩
    case spd28L a d code =>
      obtain rfl : code = 1#5 := by simpa [Instr.wf, speed28Free] using wf
      exact ⟨.estop28L a d, decode_encode (i := .estop28L a d) rfl, rfl⟩
    case spd128S a d code =>
      obtain ⟨rfl, rfl⟩ : d = false ∧ code = 1#7 := by simpa [Instr.wf, speed128Free] using wf
      exact ⟨.estop128S a, decode_encode (i := .estop128S a) rfl, rfl⟩
    case spd128L a d code =>
      obtain ⟨rfl, rfl⟩ : d = false ∧ code = 1#7 := by simpa [Instr.wf, speed128Free] using wf
      exact ⟨.estop128L a, decode_encode (i := .estop128L a) rfl, rfl⟩
    all_goals exact absurd rfl wf

/-- A non-zero address of at most 7 bits is a legal short address. -/
theorem shortLegal_of_le {a : BitVec 14} (h0 : a ≠ 0) (h : a.toNat ≤ 127) : shortLegal (a.setWidth 7) = true := by
  rw [shortLegal, bne_iff_ne]
  intro e
  have zero : a.toNat % 128 = 0 := by rw [← BitVec.toNat_setWidth (i := 7) (x := a), e]; rfl
  exact h0 (BitVec.eq_of_toNat_eq (by simp; omega))

/-- The raw address of a non-zero accessory address is not the reserved value 3 (R73, R114). -/
theorem accLegal_of_ne_zero {a : BitVec 11} (h : a ≠ 0) :
    accLegal ((a + 3).extractLsb' 2 9) ((a + 3).extractLsb' 0 2) = true := by
  rw [accLegal, Bool.not_eq_true', Bool.and_eq_false_iff, beq_eq_false_iff_ne, beq_eq_false_iff_ne]
  by_contra both
  obtain ⟨board, pair⟩ := not_or.mp both
  have board := congrArg BitVec.toNat (not_not.mp board)
  have pair := congrArg BitVec.toNat (not_not.mp pair)
  rw [raw_board] at board
  rw [raw_pair] at pair
  have below := a.isLt
  refine h (BitVec.eq_of_toNat_eq ?_)
  simp at board pair ⊢
  omega

/-- The address of a legal slot in use, in the form that the slot sends it in (R71, R72). -/
theorem slotLegal_iff {l : Loco} (h0 : l.addr ≠ 0) (h : slotLegal l = true) :
    (l.useLong = true → longLegal l.addr = true) ∧ (l.useLong = false → shortLegal (l.addr.setWidth 7) = true) := by
  have range := ((Bool.or_eq_true _ _).mp h).resolve_left fun e => h0 (beq_iff_eq.mp e)
  refine ⟨fun long => ?_, fun short => shortLegal_of_le h0 ?_⟩
  · rwa [if_pos long] at range
  · rw [if_neg (by rw [short]; decide)] at range
    exact of_decide_eq_true range

theorem slotPacket_legal {l : Loco} (h : slotLegal l = true) : (slotPacket l).legal = true := by
  unfold slotPacket
  by_cases empty : l.addr = 0
  · rw [if_pos empty]; rfl
  obtain ⟨long, short⟩ := slotLegal_iff empty h
  rw [if_neg empty]
  split
  next form => (repeat' split) <;> exact long form
  next form => (repeat' split) <;> exact short (Bool.eq_false_of_not_eq_true form)

theorem groupPacket_legal {l : Loco} (fg : Fin 3) (h : slotLegal l = true) : (groupPacket l fg).legal = true := by
  unfold groupPacket
  by_cases empty : l.addr = 0
  · rw [if_pos empty]; rfl
  obtain ⟨long, short⟩ := slotLegal_iff empty h
  rw [if_neg empty]
  cases form : l.useLong
  · simp only [Bool.false_eq_true, if_false]
    (repeat' split) <;> exact short form
  · simp only [if_true]
    (repeat' split) <;> exact long form

theorem requestPacket_legal {p : Pom} (h : pomLegal p = true) : (requestPacket p).legal = true := by
  unfold pomLegal at h
  unfold requestPacket
  cases kind : p.kind <;> simp only [kind] at h ⊢
  case short =>
    obtain ⟨h0, h127⟩ := (Bool.and_eq_true _ _).mp h
    have legal := shortLegal_of_le (bne_iff_ne.mp h0) (of_decide_eq_true h127)
    split <;> exact legal
  case long => split <;> exact h
  case accessory =>
    obtain ⟨h0, h2047⟩ := (Bool.and_eq_true _ _).mp h
    have range := of_decide_eq_true h2047
    have cut : p.addr.setWidth 11 ≠ 0 := fun e => bne_iff_ne.mp h0 (BitVec.eq_of_toNat_eq (by
      have zero : p.addr.toNat % 2048 = 0 := by rw [← BitVec.toNat_setWidth (i := 11) (x := p.addr), e]; rfl
      simp; omega))
    split <;> exact accLegal_of_ne_zero cut

theorem sequencePacket_legal (v : Svc) : (sequencePacket v).legal = true := by
  unfold sequencePacket verifyPacket; (repeat' split) <;> rfl

theorem dispatchFamily_accessory {s : State} : dispatchFamily s = .accessory ↔ s.enc.fam = .accessory := by
  cases hf : s.enc.fam <;> simp [dispatchFamily, hf] <;> split <;> simp

/-- DISPATCH from legal records assembles a packet of legal address (R396). -/
theorem assemble_legal {s : State} (records : AddressesLegal s) {f : Family} {bs : List Byte}
    (h : assemble s = some (f, bs)) :
    ∃ i : Instr, encode i = bs ∧ i.legal = true ∧ (i.family = f ∨ i = .idle ∧ f = .function) := by
  unfold assemble at h
  split at h
  case h_1 =>
    obtain ⟨l, slot, e⟩ := Option.map_eq_some_iff.mp h; cases e
    exact ⟨_, (locoPayload_eq l).symm, slotPacket_legal (records.slots l (List.mem_of_getElem? slot)),
      .inl (slotPacket_family l)⟩
  case h_2 =>
    obtain ⟨l, slot, e⟩ := Option.map_eq_some_iff.mp h; cases e
    exact ⟨_, (functionPayload_eq l _).symm, groupPacket_legal _ (records.slots l (List.mem_of_getElem? slot)),
      (groupPacket_family l _).imp_right (⟨·, rfl⟩)⟩
  case h_3 family =>
    cases h
    exact ⟨_, (accessoryPayload_eq _ _).symm,
      accLegal_of_ne_zero (records.accessory (dispatchFamily_accessory.mp family)), .inl rfl⟩
  case h_4 => cases h; exact ⟨.bstop, rfl, rfl, .inl rfl⟩
  case h_5 family =>
    cases h
    exact ⟨_, (pomPayload_eq _).symm, requestPacket_legal (records.pom (dispatchFamily_pom.mp family).2),
      .inl (requestPacket_family _)⟩
  case h_6 =>
    cases h
    exact ⟨_, (servicePayload_eq _).symm, sequencePacket_legal _, .inl (sequencePacket_family _)⟩

/-- Those bytes do not begin with a reserved one and are read as a packet of legal address. -/
theorem assemble_decodes {s : State} (records : AddressesLegal s) {f : Family} {bs : List Byte}
    (h : assemble s = some (f, bs)) :
    reservedFirst bs = false ∧ ∃ i : Instr, decode f bs = .ok i ∧ i.legal = true := by
  obtain ⟨i, rfl, legal, family⟩ := assemble_legal records h
  refine ⟨reservedFirst_encode legal, ?_⟩
  rcases family with rfl | ⟨rfl, rfl⟩
  · obtain ⟨j, decoded, same⟩ := decode_legal i
    exact ⟨j, decoded, same.trans legal⟩
  · exact ⟨.idle, rfl, rfl⟩

/-! ## The buffers after one step -/

theorem reservedFirst_withChecksum {bs : List Byte} (not_empty : bs ≠ []) (h : reservedFirst bs = false) :
    reservedFirst (withChecksum bs) = false := (reservedFirst_append not_empty _).trans h

theorem encode_ne_nil (i : Instr) : encode i ≠ [] := by
  cases i <;> exact List.cons_ne_nil _ _

theorem encode_published {i : Instr} (h : reservedFirst (encode i) = false) {lp : Bool} {s t : State}
    (shared : t.shared = (publish (encode i) lp (claim s)).shared) : reservedFirst (sharedPacket t) = false := by
  rw [(published_encode i lp shared).packet]; exact reservedFirst_withChecksum (encode_ne_nil i) h

/-- A claim leaves the shared packet, or publishes its own packet or the broadcast stop. -/
theorem exec_reservedFree {i : Instr} {s t : State} (h : exec i s = .next t)
    (own : reservedFirst (encode i) = false) (before : reservedFirst (sharedPacket s) = false) :
    reservedFirst (sharedPacket t) = false := by
  cases exec_next h with
  | loco l _ _ e => exact encode_published own (lp := false) (s := s) (by rw [e, finishLoco_shared])
  | idle l _ _ e | function l _ _ e | accessory _ e =>
    exact encode_published own (lp := false) (s := s) (by rw [e]; rfl)
  | writeBit _ _ e => exact encode_published own (lp := true) (s := s) (by rw [e])
  | estop _ e =>
    have packet : sharedPacket t = withChecksum (estopPayload s.par) := by
      rw [e]; exact sharedPacket_publish (by simp [estopPayload]) false (claim s)
    rw [packet]; rfl
  | pom _ e =>
    by_cases first : s.pom.budget = 0
    · have build : pomBuild (encode i) (claim s) = publish (encode i) false (claim s) := if_pos first
      exact encode_published own (lp := false) (s := s) (by rw [e, build, pomCount_shared])
    · have build : pomBuild (encode i) (claim s) = claim s := if_neg first
      rw [sharedPacket_congr (t := claim s) (by rw [e, build, pomCount_shared])]
      exact before
  | service _ _ e =>
    have shared : t.shared = (svcBuild (encode i) (claim s)).shared := by rw [e, svcCount_frame]
    by_cases first : s.svc.budget = 0
    · have build : svcBuild (encode i) (claim s) = publish (encode i) true (claim s) := if_pos first
      exact encode_published own (lp := true) (s := s) (by rw [shared, build])
    · have build : svcBuild (encode i) (claim s) = claim s := if_neg first
      rw [sharedPacket_congr (t := claim s) (by rw [shared, build])]
      exact before

/-- The transmitter's buffer after a TX step is as before or the shared one. -/
theorem txStep_buffers {s t : State} (h : txStep s = .next t) :
    t.tx.buf = s.tx.buf ∨ t.tx.buf = { data := s.shared.data, len := s.shared.len } := by
  cases txStep_next h with
  | second _ e => rw [e, txTicks_frame]; exact .inl rfl
  | first u b _ hn e => rw [e, txTicks_frame]; exact nextBit_buffers (s := startBit s) (t := u) hn

theorem ReservedFree.of_txStep {s t : State} (h : ReservedFree s) (step : txStep s = .next t) : ReservedFree t := by
  obtain ⟨shared, private_packet⟩ := h
  have packet : sharedPacket t = sharedPacket s := by rw [txStep_frame step]; rfl
  refine ⟨by rw [packet]; exact shared, ?_⟩
  rcases txStep_buffers step with buf | buf
  · rw [show txPacket t = txPacket s by rw [txPacket, buf]; rfl]; exact private_packet
  · rw [show txPacket t = sharedPacket s by rw [txPacket, buf]; rfl]; exact shared

/-- The buffers after reset hold the idle packet. -/
theorem reservedFree_boot (par : Params) (n : Nat) (table : List LocoBoot) (iLim vLim : Rat) (es : List Event) :
    ReservedFree (State.boot par n table iLim vLim es) := ⟨rfl, rfl⟩

/-- No step from legal records brings a packet with a reserved first byte into a buffer. -/
theorem step_reservedFree {s t : State} (turns : noLoad s.agenda = true) (records : AddressesLegal s)
    (h : step s = .next t) (free : ReservedFree s) : ReservedFree t := by
  have ⟨shared, private_packet⟩ := free
  cases step_next h with
  | tx _ h => exact ReservedFree.of_txStep (s := popTurn s) free h
  | claim i f bs _ _ hf hd h =>
    rw [fetch_of_noLoad turns] at hf
    have own := (assemble_decodes records hf).1
    rw [← (decode_ok hd).1] at own
    refine ⟨exec_reservedFree h own shared, ?_⟩
    rw [show txPacket t = txPacket s by rw [txPacket, (exec_frame h).tx]; rfl]; exact private_packet
  | pass _ _ e => rw [e]; exact free
  | host c es _ h =>
    have frame := hostStep_frame h
    have packet : sharedPacket t = sharedPacket s := by rw [sharedPacket, frame.shared]; rfl
    refine ⟨by rw [packet]; exact shared, ?_⟩
    rw [show txPacket t = txPacket s by rw [txPacket, frame.tx]; rfl]; exact private_packet
  | reset table iLim vLim es _ e => rw [e]; exact reservedFree_boot ..

/-! ## Legal addresses stay legal -/

/-- Legal addresses are a matter of the fields that the core does not write: those of the slots that the host writes,
the accessory command, and the kind and address of the POM request. -/
theorem AddressesLegal.congr {s t : State} (h : AddressesLegal s) (slots : t.loco.map hostFields = s.loco.map hostFields)
    (acc : t.acc = s.acc) (tag : t.enc.fam = .accessory → s.enc.fam = .accessory) (request : pomLegal t.pom = pomLegal s.pom)
    (running : t.pom.state ≠ .idle → s.pom.state ≠ .idle) : AddressesLegal t where
  slots := fun l hl => by
    have written : hostFields l ∈ s.loco.map hostFields := slots ▸ List.mem_map_of_mem hl
    obtain ⟨l', hl', same⟩ := List.mem_map.mp written
    have legal := h.slots l' hl'
    rwa [show slotLegal l' = slotLegal (hostFields l') from rfl, same] at legal
  accessory := fun e => by rw [acc]; exact h.accessory (tag e)
  pom := fun e => by rw [request]; exact h.pom (running e)

/-- A claim that leaves the POM record and does not set the tag ACCESSORY. -/
theorem AddressesLegal.of_claim {s t : State} (h : AddressesLegal s) (frame : ClaimFrame s t)
    (tag : t.enc.fam = .accessory → s.enc.fam = .accessory) (pom : t.pom = s.pom) : AddressesLegal t :=
  h.congr frame.slots frame.acc tag (by rw [pom]) (by rw [pom]; exact id)

/-- A claim writes no address and starts no request. -/
theorem AddressesLegal.exec {i : Instr} {s t : State} (h : AddressesLegal s) (run : exec i s = .next t) :
    AddressesLegal t := by
  have frame := exec_frame run
  cases exec_next run with
  | loco l _ _ e =>
    refine h.of_claim frame ?_ ?_
    · rw [e, finishLoco_fam]; exact Family.noConfusion
    · rw [e, finishLoco_frame]; rfl
  | idle l _ _ e | function l _ _ e | accessory _ e | estop _ e =>
    exact h.of_claim frame (by rw [e]; exact Family.noConfusion) (by rw [e]; rfl)
  | writeBit _ _ e => exact h.of_claim frame (by rw [e]; exact id) (by rw [e]; rfl)
  | service _ _ e =>
    refine h.of_claim frame ?_ ?_ <;> rw [e, svcCount_frame, svcBuild_frame]
    · exact id
    · rfl
  | pom _ e =>
    have pom : (pomBuild (encode i) (claim s)).pom = s.pom := by rw [pomBuild_frame]; rfl
    have enc : (pomBuild (encode i) (claim s)).enc = s.enc := by rw [pomBuild_frame]; rfl
    refine h.congr frame.slots frame.acc ?_ ?_ ?_
    · rw [e, pomCount_enc, enc]; exact id
    · rw [e, pomCount_pom, pom]; rfl
    · rw [e, pomCount_pom, pom]
      exact fun running idle => running (by rw [idle, ite_self])

/-- The core's own steps keep legal addresses legal. -/
theorem step_addressesLegal {s t : State}
    (own : s.agenda = [] ∨ (∃ es, s.agenda = .tx :: es) ∨ ∃ es, s.agenda = .enc :: es) (h : step s = .next t)
    (records : AddressesLegal s) : AddressesLegal t := by
  cases step_next h with
  | tx _ run =>
    rw [txStep_frame run]
    exact ⟨records.slots, records.accessory, records.pom⟩
  | claim i f bs _ _ _ _ run => exact records.exec run
  | pass _ _ e => rw [e]; exact ⟨records.slots, records.accessory, records.pom⟩
  | host c es turn _ => rw [turn] at own; simp at own
  | reset table iLim vLim es turn _ => rw [turn] at own; simp at own

/-- Settles O57. -/
theorem reservedFirstBytesNeverSent : Obligations.ReservedFirstBytesNeverSent :=
  ⟨fun _ _ _ records => assemble_decodes records, fun _ _ => step_reservedFree, reservedFree_boot,
    fun _ _ => step_addressesLegal⟩

end Sys2Proof.Machine
end
